-- ==== Sys2Proof/Word.lean ====
section
/-! DEFINITION. The word and byte types of the CORE (R10, R12).

Words are unsigned 32-bit values (R10); the operators `^`, `&`, `|`, `~` and the wrapping `+` of R11
and R130 are `BitVec`'s own `^^^`, `&&&`, `|||`, `~~~` and `+`. Byte sequences (R12) are lists. -/

namespace Sys2Proof

/-- A 32-bit word, bit 31 the most significant (R10). -/
abbrev Word := BitVec 32

/-- A byte (R10). -/
abbrev Byte := BitVec 8

/-- A byte sequence `bytes` of any length, index 0 first (R12). -/
abbrev Bytes := List Byte

end Sys2Proof
end

