-- ==== Sys2Proof/Syntax.lean ====
section
/-! DEFINITION. The instructions of the CORE: the ten commands of R91.

A command word has no operand field of any kind (R90), so no constructor takes an argument. -/

namespace Sys2Proof

/-- One constructor per row of spec/opcode_table.json (R91). -/
inductive Instr where
  /-- Key schedule expansion (R150). -/
  | keyexp
  /-- Encrypt the block in `BLK` (R151). -/
  | encblk
  /-- Decrypt the block in `BLK` (R152). -/
  | decblk
  /-- Chained-mode encryption with padding (R176). -/
  | cbcenc
  /-- Chained-mode decryption with unpadding (R177). -/
  | cbcdec
  /-- Codebook-mode encryption with padding (R178). -/
  | ecbenc
  /-- Codebook-mode decryption with unpadding (R179). -/
  | ecbdec
  /-- Initialise the hash state (R210). -/
  | hinit
  /-- Compress one block into the hash state (R211). -/
  | hblock
  /-- Digest of a whole message (R212). -/
  | hash
deriving DecidableEq, Repr

end Sys2Proof
end

