-- ==== Sys2Proof/Decode.lean ====
section
/-! DEFINITION. Decoding and encoding of the command word written to `CMD` (R90 to R93).

The CORE fetches nothing (R32): a command word is the data of one 32-bit bus write and never lies in
a memory of its own, so the decoder takes the word, not bytes. -/

namespace Sys2Proof

/-- Why a word selects no command (R93). -/
inductive DecodeError where
  /-- Bits 31:8, the field `zero`, are not all 0. -/
  | zeroFieldNotZero
  /-- The opcode is 0x00 or in 0x0B to 0xFF. -/
  | opcodeUnassigned
deriving DecidableEq, Repr

/-- Field `zero`, bits 31:8 (R90). -/
def zeroField (w : Word) : BitVec 24 := w.extractLsb' 8 24

/-- Field `op`, bits 7:0 (R90). -/
def opField (w : Word) : Byte := w.extractLsb' 0 8

/-- The opcode map (R91). -/
def opcode : Instr → Byte
  | .keyexp => 0x01
  | .encblk => 0x02
  | .decblk => 0x03
  | .cbcenc => 0x04
  | .cbcdec => 0x05
  | .ecbenc => 0x06
  | .ecbdec => 0x07
  | .hinit => 0x08
  | .hblock => 0x09
  | .hash => 0x0A

/-- The rows of the opcode map, in the table's order (R91). -/
def commandTable : List (Byte × Instr) :=
  [(0x01, .keyexp), (0x02, .encblk), (0x03, .decblk), (0x04, .cbcenc), (0x05, .cbcdec),
   (0x06, .ecbenc), (0x07, .ecbdec), (0x08, .hinit), (0x09, .hblock), (0x0A, .hash)]

/-- The command an opcode selects (R91). -/
def commandOf (op : Byte) : Option Instr :=
  (commandTable.find? fun row => row.1 == op).map Prod.snd

/-- Decoding, total on every 32-bit word (R92, R93). -/
def decode (w : Word) : Except DecodeError Instr :=
  if zeroField w ≠ 0 then .error .zeroFieldNotZero
  else match commandOf (opField w) with
    | some i => .ok i
    | none => .error .opcodeUnassigned

/-- The command word of an instruction: field `zero` is 0, field `op` its opcode (R90, R91). -/
def encode (i : Instr) : Word := (0 : BitVec 24) ++ opcode i

/-- The instruction the decoder reads from a word numbered as spec/opcode_table.json numbers it.
Every row has 32 bits (R90); bits above `nbits` are 0, and a number of more than 32 bits is no
command word (log entry 11). -/
def decodeTableWord (nbits w : Nat) : Option Instr :=
  let v := w % 2 ^ nbits
  if v < 2 ^ 32 then (decode (BitVec.ofNat 32 v)).toOption else none

end Sys2Proof
end

