-- ==== Sys2Proof/Config.lean ====
section
/-! DEFINITION. What an implementation fixes (R9) and the one free value of the model. -/

namespace Sys2Proof

/-- The open parameters of the CORE (R9): there is exactly one, the size of the buffer memory.
It is an argument of the model, carried in `State.cfg`, so that a claim about every state is a claim
about every size; no step changes it. -/
structure Config where
  /-- `BUF_BYTES`, the size of `BUF` in bytes. -/
  bufBytes : Nat
deriving DecidableEq, Repr

/-- The range R9 gives for the open parameter: `1 <= BUF_BYTES <= 2^32 - 1`. -/
def Config.wf (c : Config) : Bool := decide (1 ≤ c.bufBytes ∧ c.bufBytes ≤ 2 ^ 32 - 1)

/-- The size the one concrete state `State.reset` carries. DESIGN CHOICE, log entry 1: R9 leaves it
open; 0x1000 is the size used throughout 95_test_vectors.md. -/
def Config.atReset : Config := { bufBytes := 0x1000 }

/-- FREE VALUE (log entry 2): what address `a` of `BUF` holds after the `n`-th power-up, until
somebody writes it. R291 leaves it unspecified, so it has no body and nothing can be proved of it. -/
opaque Config.powerUpByte : (n : Nat) → (a : Nat) → Byte

end Sys2Proof
end

