-- ==== Sys2Proof/Machine/State.lean ====
section
/-! DEFINITION. The state of the CORE (R20 to R41), the host's transactions (R94) and the reasons a
step can stop.

The first four groups of fields of `State` are the CORE's whole architectural state (R20). The last
two groups are the model's own: its open parameter, the free-value index, and the host side, whose
list of transactions R32 and R100 give to the host, not to the CORE. -/

namespace Sys2Proof.Machine

/-- The values of `STATUS.ERR`; the codes 7 to 15 are never produced (R260). -/
inductive ErrCode where
  | ok
  | illegal
  | noKey
  | length
  | resource
  | overlap
  | padding
deriving DecidableEq, Repr

/-- The buffer memory as plain data (R35): the bytes written since power-up, by address. A byte not
listed holds no known value (R291). -/
abbrev Memory := List Host.Cell

/-- Why a host transaction is refused (R240, R262, R77). The spec has one `BusError`; the names
say which of its conditions holds (log entry 12). -/
inductive BusError where
  /-- An offset that is not a multiple of 4. -/
  | misaligned
  /-- An offset of 0x100 or more. -/
  | beyondRegisterFile
  /-- An offset that holds no register (R39). -/
  | reservedOffset
  /-- A write to `STATUS`, `OUTLEN` or `RK[i]`. -/
  | readOnly
  /-- A `PUT` or `GET` that does not lie inside `BUF`. -/
  | outsideBuf
deriving DecidableEq, Repr

/-- A transaction of the host (R94). -/
inductive Transaction where
  /-- 32-bit write to the register file. -/
  | wr (off : Nat) (data : Word)
  /-- 32-bit read of the register file. -/
  | rd (off : Nat)
  /-- Host write of bytes into `BUF`. -/
  | put (addr : Nat) (v : Bytes)
  /-- Host read of bytes from `BUF`. -/
  | get (addr : Nat) (n : Nat)
deriving DecidableEq, Repr

/-- What the outside world can do to the CORE (R297): a transaction, or the platform's reset input,
asserted between transactions (R290) or by a power-up, which leaves `BUF` unspecified (R291). -/
inductive HostStep where
  | bus (t : Transaction)
  | reset
  | powerUp
deriving DecidableEq, Repr

/-- What a read transaction returns to the host (R242, R77). -/
inductive Response where
  | word (w : Word)
  | bytes (v : Bytes)
deriving DecidableEq, Repr

/-- The reasons the machine itself could stop. There is none: R272 says the CORE has no fatal and no
stuck state. Errors are codes in `STATUS.ERR` of a next state (R266). -/
inductive Fault
deriving DecidableEq, Repr

/-- The reasons the model gives a step no meaning. -/
inductive Refusal where
  /-- Raised by an arm of `exec` for an instruction without a meaning: no arm raises it. Safe. -/
  | notModelled (mnemonic : String)
  /-- Raised by a host transaction that the bus refuses: a program that contains one is ill formed,
  and R262 asks the model to refuse it by name (log entry 6). Safe. -/
  | busError (cause : BusError)
deriving DecidableEq, Repr

/-- The machine. -/
structure State where
  /-- `KEY[0..3]`, the master key (R22). -/
  key : Vector Word 4
  /-- `RK[0..31]`, the round keys (R23). -/
  rk : Vector Word 32
  /-- `IV[0..3]`, the cipher initialization vector (R24). -/
  iv : Vector Word 4
  /-- `BLK[0..3]`, the single-block data register (R25). -/
  blk : Vector Word 4
  /-- `H[0..7]`, the hash state (R26). -/
  h : Vector Word 8
  /-- `SRC`, byte address of the input (R27). -/
  src : Word
  /-- `DST`, byte address of the output (R28). -/
  dst : Word
  /-- `LEN`, count of input bytes (R29). -/
  len : Word
  /-- `OUTLEN`, count of meaningful output bytes of the last command (R30). -/
  outlen : Word
  /-- `CTRL.STRICT`, the only bit of `CTRL` that is storage (R33). -/
  strict : Bool
  /-- `STATUS.RKV`: `RK` is the schedule of `KEY` (R31). -/
  rkv : Bool
  /-- `STATUS.PADBAD` (R31). -/
  padbad : Bool
  /-- `STATUS.ERR` (R31). -/
  err : ErrCode
  /-- `BUF`, the buffer memory (R35). -/
  buf : Memory
  /-- The open parameter of the model (R9); no step changes it. -/
  cfg : Config
  /-- The model's own: the number of power-ups so far, index of the free value that stands for the
  bytes of `BUF` nobody has written (log entry 2). -/
  powerUps : Nat
  /-- The model's own: the host's transactions still to come, next one first (R100; log entry 3). -/
  pending : List HostStep
  /-- The model's own: what read transactions have returned, oldest first (log entry 4). -/
  responses : List Response
deriving DecidableEq, Repr

/-- The state after power-up and reset: every register zero (R40, R290), `BUF` unspecified (R291),
no transaction issued yet. -/
def State.reset : State where
  key := .replicate 4 0
  rk := .replicate 32 0
  iv := .replicate 4 0
  blk := .replicate 4 0
  h := .replicate 8 0
  src := 0
  dst := 0
  len := 0
  outlen := 0
  strict := false
  rkv := false
  padbad := false
  err := .ok
  buf := []
  cfg := Config.atReset
  powerUps := 0
  pending := []
  responses := []

end Sys2Proof.Machine
end

