-- ==== Sys2Proof/Machine/Ops.lean ====
section
/-! DEFINITION. The named operations over the buffer memory and the registers, and the two ways a
command ends: with an error (R266) or done. -/

namespace Sys2Proof.Machine

/-! ### The buffer memory as a list of cells -/

/-- The canonical form: addresses strictly rising. An address that is not listed has no value (log
entry 2), so no entry can equal what an unlisted address reads as, and this is the whole form. -/
abbrev Memory.wf (m : Memory) : Prop := (m.map Prod.fst).Pairwise (· < ·)

/-- The byte listed at an address, `none` where nothing has been written since power-up (R291). -/
def Memory.find : Memory → Nat → Option Byte
  | [], _ => none
  | (b, v) :: rest, a => if a = b then some v else Memory.find rest a

/-- Store one byte, keeping the canonical form. -/
def Memory.setByte : Memory → Nat → Byte → Memory
  | [], a, v => [(a, v)]
  | (b, w) :: rest, a, v =>
    if a < b then (a, v) :: (b, w) :: rest
    else if a = b then (a, v) :: rest
    else (b, w) :: Memory.setByte rest a v

/-- Store a byte sequence at rising addresses, `v[0]` at `addr` (R64). -/
def Memory.setBytes : Memory → Nat → Bytes → Memory
  | m, _, [] => m
  | m, a, v :: vs => Memory.setBytes (m.setByte a v) (a + 1) vs

/-! ### Access to `BUF` (R63, R64) -/

/-- `BUF[a]`: the last value written (R35), or the unspecified power-up contents (R291), a free value
(log entry 2). -/
def State.readByte (s : State) (a : Nat) : Byte :=
  match s.buf.find a with
  | some v => v
  | none => Config.powerUpByte s.powerUps a

/-- `MemRead(addr, n)`, the byte at `addr` first (R63). -/
def State.memRead (s : State) : (addr n : Nat) → Bytes
  | _, 0 => []
  | a, n + 1 => s.readByte a :: s.memRead (a + 1) n

/-- `MemWrite(addr, len(v), v)` (R64). -/
def State.memWrite (s : State) (addr : Nat) (v : Bytes) : State :=
  { s with buf := s.buf.setBytes addr v }

/-- `fits(a, n)` on natural numbers, no wrap-around (R66). -/
def State.fits (s : State) (a n : Nat) : Bool := decide (a + n ≤ s.cfg.bufBytes)

/-! ### How a command ends -/

/-- `raise CmdError(code)`, the CORE's only exception entry (R266): the code is recorded, `OUTLEN` is
0, `PADBAD` says whether the cause was the padding, and nothing else changes. There is no saved
state, no vector and no return (R271). -/
def State.cmdError (s : State) (code : ErrCode) : State :=
  { s with err := code, outlen := 0, padbad := decide (code = .padding) }

/-- The flags and `OUTLEN` of a command that succeeds: `ERR = OK` (R266). -/
def State.cmdDone (s : State) (outlen : Nat) (padbad : Bool) : State :=
  { s with err := .ok, outlen := BitVec.ofNat 32 outlen, padbad := padbad }

/-! ### Whole-register writes by commands -/

/-- KEYEXP's result: all of `RK` together, and `RKV` set (R23, R150). -/
def State.setSchedule (s : State) (rk : Vector Word 32) : State := { s with rk := rk, rkv := true }

/-- `BLK`, all four words together (R151). -/
def State.setBlk (s : State) (b : Vector Word 4) : State := { s with blk := b }

/-- `H`, all eight words together (R26). -/
def State.setH (s : State) (v : Vector Word 8) : State := { s with h := v }

/-! ### Register writes by the host (R241) -/

/-- `KEY[k] <- data`, which also clears `RKV`, whatever the value (R22). -/
def State.writeKey (s : State) (k : Fin 4) (d : Word) : State :=
  { s with key := s.key.set k d, rkv := false }

/-- `IV[k] <- data` (R24). -/
def State.writeIv (s : State) (k : Fin 4) (d : Word) : State := { s with iv := s.iv.set k d }

/-- `BLK[k] <- data` (R25). -/
def State.writeBlk (s : State) (k : Fin 4) (d : Word) : State := { s with blk := s.blk.set k d }

/-- `H[k] <- data` (R26). -/
def State.writeH (s : State) (k : Fin 8) (d : Word) : State := { s with h := s.h.set k d }

/-- `SRC <- data` (R27). -/
def State.writeSrc (s : State) (d : Word) : State := { s with src := d }

/-- `DST <- data` (R28). -/
def State.writeDst (s : State) (d : Word) : State := { s with dst := d }

/-- `LEN <- data` (R29). -/
def State.writeLen (s : State) (d : Word) : State := { s with len := d }

/-- `CTRL <- data & 1`: bits 31:1 are ignored (R33). -/
def State.writeCtrl (s : State) (d : Word) : State := { s with strict := d.getLsbD 0 }

/-! ### The host side -/

/-- Hand a read's result to the host. -/
def State.respond (s : State) (r : Response) : State := { s with responses := s.responses ++ [r] }

/-- The host's remaining transactions. -/
def State.withPending (s : State) (p : List HostStep) : State := { s with pending := p }

/-- The reset input: every register zero (R40, R290); `BUF` keeps its contents (R291). What is not
the CORE's (its size, the host's list and what the host has received) is not touched. -/
def State.resetRegisters (s : State) : State :=
  { State.reset with
    buf := s.buf, cfg := s.cfg, powerUps := s.powerUps, pending := s.pending, responses := s.responses }

/-- Power-up: reset, and the contents of `BUF` become unspecified anew (R291; log entry 5). -/
def State.powerUp (s : State) : State :=
  { s.resetRegisters with buf := [], powerUps := s.powerUps + 1 }

end Sys2Proof.Machine
end

