-- ==== Sys2Proof/Machine/Operands.lean ====
section
/-! DEFINITION. The operands of the buffer commands and the checks before any access (R65 to R69,
R175, R269).

A buffer command has one addressing mode (R65): `inlen` bytes at the absolute address `SRC`, `outcap`
bytes at the absolute address `DST`. All arithmetic is on natural numbers. -/

namespace Sys2Proof.Machine

/-- `outcap` of the encrypt commands: the padded length (R65). -/
def paddedLength (len : Nat) : Nat := len + 16 - len % 16

/-- The number of bytes HBLOCK reads (R65). -/
def hashBlockBytes : Nat := 64

/-- The number of bytes HASH writes (R65). -/
def digestBytes : Nat := 32

/-- `SRC` as a byte address. -/
def State.srcAddr (s : State) : Nat := s.src.toNat

/-- `DST` as a byte address. -/
def State.dstAddr (s : State) : Nat := s.dst.toNat

/-- `LEN` as a byte count. -/
def State.lenBytes (s : State) : Nat := s.len.toNat

/-- The ranges `[src, src + inlen)` and `[dst, dst + outcap)` overlap in a way that R67 refuses: the
input is not empty, they do not start together, and they are not disjoint. -/
def partialOverlap (src inlen dst outcap : Nat) : Bool :=
  !(decide (inlen = 0) || decide (dst = src) || decide (src + inlen ≤ dst) || decide (dst + outcap ≤ src))

/-- The code of the first condition that holds, in the order listed; nothing after it is looked at
(R269). -/
def firstError : List (Bool × ErrCode) → Option ErrCode
  | [] => none
  | (c, e) :: rest => if c then some e else firstError rest

/-- Range check, then overlap check (R66, R67; the order of R269). -/
def State.rangeConditions (s : State) (inlen outcap : Nat) : List (Bool × ErrCode) :=
  [(!(s.fits s.srcAddr inlen && s.fits s.dstAddr outcap), .resource),
   (partialOverlap s.srcAddr inlen s.dstAddr outcap, .overlap)]

/-- The admission checks of CBCENC and ECBENC (R175). -/
def State.encryptError (s : State) : Option ErrCode :=
  firstError ((!s.rkv, .noKey) :: s.rangeConditions s.lenBytes (paddedLength s.lenBytes))

/-- The admission checks of CBCDEC and ECBDEC (R175). -/
def State.decryptError (s : State) : Option ErrCode :=
  firstError
    ((!s.rkv, .noKey) :: (decide (s.lenBytes = 0 ∨ s.lenBytes % 16 ≠ 0), .length) ::
      s.rangeConditions s.lenBytes s.lenBytes)

/-- The check of HBLOCK: it writes nothing to `BUF`, so only its input range counts (R66, R211). -/
def State.hblockError (s : State) : Option ErrCode :=
  firstError [(!s.fits s.srcAddr hashBlockBytes, .resource)]

/-- The checks of HASH (R212). -/
def State.hashError (s : State) : Option ErrCode :=
  firstError (s.rangeConditions s.lenBytes digestBytes)

end Sys2Proof.Machine
end

