-- ==== Sys2Proof/Machine/Primitives.lean ====
section
/-! DEFINITION. The shared primitives, constant tables and word transforms (R120 to R132).

All of them are total functions of their arguments alone (R132). The tables are those the spec
supplies from general knowledge (its items G1 to G3; log entry 10). -/

namespace Sys2Proof.Machine

/-- `rotl(x, n)`: bit `i` of `x` becomes bit `(i + n) mod 32` (R120). -/
def rotl (x : Word) (n : Nat) : Word := x.rotateLeft n

/-- `pack32(b0, b1, b2, b3)`, big-endian (R121). -/
def pack32 (b0 b1 b2 b3 : Byte) : Word := b0 ++ b1 ++ b2 ++ b3

/-- `unpack32(w)`, the most significant byte first (R122). -/
def unpack32 (w : Word) : Bytes :=
  [w.extractLsb' 24 8, w.extractLsb' 16 8, w.extractLsb' 8 8, w.extractLsb' 0 8]

/-- The big-endian words of a byte sequence whose length is a multiple of 4 (R61, R131, R205); what it
makes of another length is never asked (log entry 13). -/
def packWords : Bytes → List Word
  | b0 :: b1 :: b2 :: b3 :: rest => pack32 b0 b1 b2 b3 :: packWords rest
  | _ => []

/-- The bytes of a sequence of words, each unpacked big-endian (R131, R214). -/
def unpackWords (ws : List Word) : Bytes := ws.flatMap unpack32

/-- `words4(b)` for `b` of 16 bytes (R131). -/
def words4 (b : Bytes) : Vector Word 4 :=
  #v[(packWords b).getD 0 0, (packWords b).getD 1 0, (packWords b).getD 2 0, (packWords b).getD 3 0]

/-- `bytes16(w0, w1, w2, w3)` (R131). -/
def bytes16 (w : Vector Word 4) : Bytes := unpackWords w.toList

/-! ### The substitution table (R123), one row of the spec's table each -/

def sboxRow0 : List Byte :=
  [0xD6, 0x90, 0xE9, 0xFE, 0xCC, 0xE1, 0x3D, 0xB7,
   0x16, 0xB6, 0x14, 0xC2, 0x28, 0xFB, 0x2C, 0x05]

def sboxRow1 : List Byte :=
  [0x2B, 0x67, 0x9A, 0x76, 0x2A, 0xBE, 0x04, 0xC3,
   0xAA, 0x44, 0x13, 0x26, 0x49, 0x86, 0x06, 0x99]

def sboxRow2 : List Byte :=
  [0x9C, 0x42, 0x50, 0xF4, 0x91, 0xEF, 0x98, 0x7A,
   0x33, 0x54, 0x0B, 0x43, 0xED, 0xCF, 0xAC, 0x62]

def sboxRow3 : List Byte :=
  [0xE4, 0xB3, 0x1C, 0xA9, 0xC9, 0x08, 0xE8, 0x95,
   0x80, 0xDF, 0x94, 0xFA, 0x75, 0x8F, 0x3F, 0xA6]

def sboxRow4 : List Byte :=
  [0x47, 0x07, 0xA7, 0xFC, 0xF3, 0x73, 0x17, 0xBA,
   0x83, 0x59, 0x3C, 0x19, 0xE6, 0x85, 0x4F, 0xA8]

def sboxRow5 : List Byte :=
  [0x68, 0x6B, 0x81, 0xB2, 0x71, 0x64, 0xDA, 0x8B,
   0xF8, 0xEB, 0x0F, 0x4B, 0x70, 0x56, 0x9D, 0x35]

def sboxRow6 : List Byte :=
  [0x1E, 0x24, 0x0E, 0x5E, 0x63, 0x58, 0xD1, 0xA2,
   0x25, 0x22, 0x7C, 0x3B, 0x01, 0x21, 0x78, 0x87]

def sboxRow7 : List Byte :=
  [0xD4, 0x00, 0x46, 0x57, 0x9F, 0xD3, 0x27, 0x52,
   0x4C, 0x36, 0x02, 0xE7, 0xA0, 0xC4, 0xC8, 0x9E]

def sboxRow8 : List Byte :=
  [0xEA, 0xBF, 0x8A, 0xD2, 0x40, 0xC7, 0x38, 0xB5,
   0xA3, 0xF7, 0xF2, 0xCE, 0xF9, 0x61, 0x15, 0xA1]

def sboxRow9 : List Byte :=
  [0xE0, 0xAE, 0x5D, 0xA4, 0x9B, 0x34, 0x1A, 0x55,
   0xAD, 0x93, 0x32, 0x30, 0xF5, 0x8C, 0xB1, 0xE3]

def sboxRowA : List Byte :=
  [0x1D, 0xF6, 0xE2, 0x2E, 0x82, 0x66, 0xCA, 0x60,
   0xC0, 0x29, 0x23, 0xAB, 0x0D, 0x53, 0x4E, 0x6F]

def sboxRowB : List Byte :=
  [0xD5, 0xDB, 0x37, 0x45, 0xDE, 0xFD, 0x8E, 0x2F,
   0x03, 0xFF, 0x6A, 0x72, 0x6D, 0x6C, 0x5B, 0x51]

def sboxRowC : List Byte :=
  [0x8D, 0x1B, 0xAF, 0x92, 0xBB, 0xDD, 0xBC, 0x7F,
   0x11, 0xD9, 0x5C, 0x41, 0x1F, 0x10, 0x5A, 0xD8]

def sboxRowD : List Byte :=
  [0x0A, 0xC1, 0x31, 0x88, 0xA5, 0xCD, 0x7B, 0xBD,
   0x2D, 0x74, 0xD0, 0x12, 0xB8, 0xE5, 0xB4, 0xB0]

def sboxRowE : List Byte :=
  [0x89, 0x69, 0x97, 0x4A, 0x0C, 0x96, 0x77, 0x7E,
   0x65, 0xB9, 0xF1, 0x09, 0xC5, 0x6E, 0xC6, 0x84]

def sboxRowF : List Byte :=
  [0x18, 0xF0, 0x7D, 0xEC, 0x3A, 0xDC, 0x4D, 0x20,
   0x79, 0xEE, 0x5F, 0x3E, 0xD7, 0xCB, 0x39, 0x48]

/-- The sixteen rows of `SBOX`, row `r` the indexes `16*r` to `16*r + 15` (R123). -/
def sboxRows : List (List Byte) :=
  [sboxRow0, sboxRow1, sboxRow2, sboxRow3, sboxRow4, sboxRow5, sboxRow6, sboxRow7] ++
  [sboxRow8, sboxRow9, sboxRowA, sboxRowB, sboxRowC, sboxRowD, sboxRowE, sboxRowF]

/-- `SBOX[b]`: row the high hex digit of the index, column the low one (R123). -/
def sbox (b : Byte) : Byte := (sboxRows.getD (b.toNat / 16) []).getD (b.toNat % 16) 0

/-- `tau(x)`: each byte of the word replaced where it stands (R124). -/
def tau (x : Word) : Word :=
  pack32 (sbox (x.extractLsb' 24 8)) (sbox (x.extractLsb' 16 8))
    (sbox (x.extractLsb' 8 8)) (sbox (x.extractLsb' 0 8))

/-! ### The cipher's constants -/

/-- `FK[0..3]`, the system constants (R125). -/
def FK : Vector Word 4 := #v[0xA3B1BAC6, 0x56AA3350, 0x677D9197, 0xB27022DC]

def ckPart0 : List Word :=
  [0x00070E15, 0x1C232A31, 0x383F464D, 0x545B6269,
   0x70777E85, 0x8C939AA1, 0xA8AFB6BD, 0xC4CBD2D9]

def ckPart1 : List Word :=
  [0xE0E7EEF5, 0xFC030A11, 0x181F262D, 0x343B4249,
   0x50575E65, 0x6C737A81, 0x888F969D, 0xA4ABB2B9]

def ckPart2 : List Word :=
  [0xC0C7CED5, 0xDCE3EAF1, 0xF8FF060D, 0x141B2229,
   0x30373E45, 0x4C535A61, 0x686F767D, 0x848B9299]

def ckPart3 : List Word :=
  [0xA0A7AEB5, 0xBCC3CAD1, 0xD8DFE6ED, 0xF4FB0209,
   0x10171E25, 0x2C333A41, 0x484F565D, 0x646B7279]

/-- `CK[0..31]`, the round constants of the key schedule (R126). -/
def CK : List Word := ckPart0 ++ ckPart1 ++ ckPart2 ++ ckPart3

/-! ### The word transforms -/

/-- `Lkey` (R127). -/
def Lkey (b : Word) : Word := b ^^^ rotl b 13 ^^^ rotl b 23

/-- `Lrnd` (R127). -/
def Lrnd (b : Word) : Word := b ^^^ rotl b 2 ^^^ rotl b 10 ^^^ rotl b 18 ^^^ rotl b 24

/-- `Tkey`, the key-mixing transform (R128). -/
def Tkey (x : Word) : Word := Lkey (tau x)

/-- `Trnd`, the round transform (R129). -/
def Trnd (x : Word) : Word := Lrnd (tau x)

end Sys2Proof.Machine
end

