-- ==== Sys2Proof/Machine/BlockCipher.lean ====
section
/-! DEFINITION. The key schedule, the block transform, and the commands KEYEXP, ENCBLK, DECBLK
(R150 to R156). -/

namespace Sys2Proof.Machine

/-! ### Pure functions -/

/-- The key schedule recurrence from the window `K[i..i+3]`, one derived word `K[i+4]` per round
constant, in generation order (R153). -/
def keyRounds : (ck : List Word) → (k0 k1 k2 k3 : Word) → List Word
  | [], _, _, _, _ => []
  | c :: ck, k0, k1, k2, k3 =>
    let k4 := k0 ^^^ Tkey (k1 ^^^ k2 ^^^ k3 ^^^ c)
    k4 :: keyRounds ck k1 k2 k3 k4

theorem keyRounds_length (ck : List Word) (k0 k1 k2 k3 : Word) :
    (keyRounds ck k0 k1 k2 k3).length = ck.length := by
  induction ck generalizing k0 k1 k2 k3 with
  | nil => rfl
  | cons c ck ih => simp [keyRounds, ih]

/-- `key_schedule(mk0, mk1, mk2, mk3)` (R153). -/
def keySchedule (mk : Vector Word 4) : Vector Word 32 :=
  ⟨(keyRounds CK (mk[0] ^^^ FK[0]) (mk[1] ^^^ FK[1]) (mk[2] ^^^ FK[2]) (mk[3] ^^^ FK[3])).toArray,
    by rw [List.size_toArray, keyRounds_length]; rfl⟩

/-- The block transform from the window `X[i..i+3]`, one round per round key; the result is the last
four words in reverse order (R154). -/
def cryptRounds : (k : List Word) → (x0 x1 x2 x3 : Word) → Vector Word 4
  | [], x0, x1, x2, x3 => #v[x3, x2, x1, x0]
  | r :: k, x0, x1, x2, x3 => cryptRounds k x1 x2 x3 (x0 ^^^ Trnd (x1 ^^^ x2 ^^^ x3 ^^^ r))

/-- `crypt_words(x0, x1, x2, x3, k)` (R154). -/
def cryptWords (x : Vector Word 4) (k : List Word) : Vector Word 4 := cryptRounds k x[0] x[1] x[2] x[3]

/-- Encryption takes the round keys in the order `RK[0]` to `RK[31]` (R151, R155). -/
def encryptWords (x : Vector Word 4) (rk : Vector Word 32) : Vector Word 4 := cryptWords x rk.toList

/-- Decryption takes them in the order `RK[31]` to `RK[0]` (R152, R155). -/
def decryptWords (x : Vector Word 4) (rk : Vector Word 32) : Vector Word 4 :=
  cryptWords x rk.toList.reverse

/-- `encrypt_block(b, rk)` for `b` of 16 bytes (R155). -/
def encryptBlock (b : Bytes) (rk : Vector Word 32) : Bytes := bytes16 (encryptWords (words4 b) rk)

/-- `decrypt_block(b, rk)`, `rk` in encryption order (R155). -/
def decryptBlock (b : Bytes) (rk : Vector Word 32) : Bytes := bytes16 (decryptWords (words4 b) rk)

/-! ### Commands -/

/-- The shape ENCBLK and DECBLK share: without a valid schedule `ERR_NOKEY`, else the block in `BLK` is
replaced by its transform (R151, R152). -/
def blockCommand (transform : Vector Word 4 → Vector Word 32 → Vector Word 4) (s : State) : State :=
  if s.rkv then (s.setBlk (transform s.blk s.rk)).cmdDone 0 false else s.cmdError .noKey

/-- KEYEXP (R150): it has no error. -/
def execKeyexp (s : State) : Host.Outcome State Fault Refusal :=
  .next ((s.setSchedule (keySchedule s.key)).cmdDone 0 false)

/-- ENCBLK (R151). -/
def execEncblk (s : State) : Host.Outcome State Fault Refusal := .next (blockCommand encryptWords s)

/-- DECBLK (R152). -/
def execDecblk (s : State) : Host.Outcome State Fault Refusal := .next (blockCommand decryptWords s)

end Sys2Proof.Machine
end

