-- ==== Sys2Proof/Machine/CipherModes.lean ====
section
/-! DEFINITION. Padding, the chained and codebook modes, and the commands CBCENC, CBCDEC, ECBENC,
ECBDEC (R170 to R179). -/

namespace Sys2Proof.Machine

/-! ### Pure functions -/

/-- `pad(m)`: `p` bytes of value `p`, `1 <= p <= 16`, to the next multiple of 16 (R170). -/
def pad (m : Bytes) : Bytes :=
  let p := 16 - m.length % 16
  m ++ List.replicate p (BitVec.ofNat 8 p)

/-- The last byte of a non-empty sequence, the claimed pad length (R171). -/
def lastByte (d : Bytes) : Byte := d.getLastD 0

/-- A claimed pad length is in range (R171). -/
def padByteInRange (p : Byte) : Bool := decide (1 ≤ p.toNat ∧ p.toNat ≤ 16)

/-- `unpad(d)` for `d` of a length that is a non-zero multiple of 16: the unpadded bytes and the flag
`bad`. Only the last byte is examined (R171). -/
def unpad (d : Bytes) : Bytes × Bool :=
  if padByteInRange (lastByte d) then (d.take (d.length - (lastByte d).toNat), false) else (d, true)

/-- `xor16(a, b)` (R12). -/
def xor16 (a b : Bytes) : Bytes := List.zipWith (· ^^^ ·) a b

/-- The chaining loop of encryption over `n` blocks (R172). -/
def cbcEncryptBlocks (rk : Vector Word 32) : (n : Nat) → (chain : Bytes) → Bytes → Bytes
  | 0, _, _ => []
  | n + 1, chain, p =>
    let c := encryptBlock (xor16 (p.take 16) chain) rk
    c ++ cbcEncryptBlocks rk n c (p.drop 16)

/-- `cbc_encrypt(m, rk, iv)` (R172). -/
def cbcEncrypt (m : Bytes) (rk : Vector Word 32) (iv : Bytes) : Bytes :=
  cbcEncryptBlocks rk ((pad m).length / 16) iv (pad m)

/-- The chaining loop of decryption over `n` blocks; the chain value is always a ciphertext block
(R173). -/
def cbcDecryptBlocks (rk : Vector Word 32) : (n : Nat) → (chain : Bytes) → Bytes → Bytes
  | 0, _, _ => []
  | n + 1, chain, c =>
    xor16 (decryptBlock (c.take 16) rk) chain ++ cbcDecryptBlocks rk n (c.take 16) (c.drop 16)

/-- `cbc_decrypt_raw(c, rk, iv)` (R173). -/
def cbcDecryptRaw (c : Bytes) (rk : Vector Word 32) (iv : Bytes) : Bytes :=
  cbcDecryptBlocks rk (c.length / 16) iv c

/-- One transform applied to each of `n` blocks on its own (R174). -/
def mapBlocks (f : Bytes → Bytes) : (n : Nat) → Bytes → Bytes
  | 0, _ => []
  | n + 1, p => f (p.take 16) ++ mapBlocks f n (p.drop 16)

/-- `ecb_encrypt(m, rk)` (R174). -/
def ecbEncrypt (m : Bytes) (rk : Vector Word 32) : Bytes :=
  mapBlocks (encryptBlock · rk) ((pad m).length / 16) (pad m)

/-- `ecb_decrypt_raw(c, rk)` (R174). -/
def ecbDecryptRaw (c : Bytes) (rk : Vector Word 32) : Bytes :=
  mapBlocks (decryptBlock · rk) (c.length / 16) c

/-! ### Commands -/

/-- The shape CBCENC and ECBENC share: admission checks, then the whole input is read, and only then
the whole output written (R68, R176, R178). -/
def encryptCommand (cipher : Bytes → Bytes) (s : State) : State :=
  match s.encryptError with
  | some e => s.cmdError e
  | none =>
    (s.memWrite s.dstAddr (cipher (s.memRead s.srcAddr s.lenBytes))).cmdDone (paddedLength s.lenBytes) false

/-- How a decryption ends, given the decrypted bytes: a bad last byte under `STRICT` is `ERR_PADDING`
before anything is written; otherwise all bytes are written, pad bytes included, and `OUTLEN` is the
unpadded length (R177, R179, R268). -/
def deliverDecrypted (d : Bytes) (s : State) : State :=
  if (unpad d).2 && s.strict then s.cmdError .padding
  else (s.memWrite s.dstAddr d).cmdDone (unpad d).1.length (unpad d).2

/-- The shape CBCDEC and ECBDEC share (R177, R179). -/
def decryptCommand (decipher : Bytes → Bytes) (s : State) : State :=
  match s.decryptError with
  | some e => s.cmdError e
  | none => deliverDecrypted (decipher (s.memRead s.srcAddr s.lenBytes)) s

/-- CBCENC (R176). -/
def execCbcenc (s : State) : Host.Outcome State Fault Refusal :=
  .next (encryptCommand (fun m => cbcEncrypt m s.rk (bytes16 s.iv)) s)

/-- CBCDEC (R177). -/
def execCbcdec (s : State) : Host.Outcome State Fault Refusal :=
  .next (decryptCommand (fun c => cbcDecryptRaw c s.rk (bytes16 s.iv)) s)

/-- ECBENC (R178). -/
def execEcbenc (s : State) : Host.Outcome State Fault Refusal :=
  .next (encryptCommand (fun m => ecbEncrypt m s.rk) s)

/-- ECBDEC (R179). -/
def execEcbdec (s : State) : Host.Outcome State Fault Refusal :=
  .next (decryptCommand (fun c => ecbDecryptRaw c s.rk) s)

end Sys2Proof.Machine
end

