-- ==== Sys2Proof/Machine/HashEngine.lean ====
section
/-! DEFINITION. The hash engine and the commands HINIT, HBLOCK, HASH (R200 to R216). Its constants and
formulas are those the spec supplies from general knowledge (its items G4 to G9; log entry 10). -/

namespace Sys2Proof.Machine

/-! ### Padding -/

/-- `be64(v)`, the 8 bytes of a 64-bit value, most significant first (R200). -/
def be64 (v : BitVec 64) : Bytes :=
  [v.extractLsb' 56 8, v.extractLsb' 48 8, v.extractLsb' 40 8, v.extractLsb' 32 8,
   v.extractLsb' 24 8, v.extractLsb' 16 8, v.extractLsb' 8 8, v.extractLsb' 0 8]

/-- The number of zero bytes, `(55 - L) mod 64` (R200); 119 is 55 + 64, so that the subtraction is one
of natural numbers. -/
def hashZeros (len : Nat) : Nat := (119 - len % 64) % 64

/-- `hpad(m)` (R200). -/
def hpad (m : Bytes) : Bytes :=
  m ++ [0x80] ++ List.replicate (hashZeros m.length) 0x00 ++ be64 (BitVec.ofNat 64 (8 * m.length))

/-! ### Functions and constants of the compression -/

/-- `P0` (R201). -/
def P0 (x : Word) : Word := x ^^^ rotl x 9 ^^^ rotl x 17

/-- `P1` (R201). -/
def P1 (x : Word) : Word := x ^^^ rotl x 15 ^^^ rotl x 23

/-- `FF`: exclusive-or in rounds 0 to 15, majority in rounds 16 to 63 (R202). -/
def FF (j : Nat) (x y z : Word) : Word :=
  if j ≤ 15 then x ^^^ y ^^^ z else (x &&& y) ||| (x &&& z) ||| (y &&& z)

/-- `GG`: exclusive-or in rounds 0 to 15, choice in rounds 16 to 63 (R202). -/
def GG (j : Nat) (x y z : Word) : Word :=
  if j ≤ 15 then x ^^^ y ^^^ z else (x &&& y) ||| (~~~x &&& z)

/-- `TJ(j)` (R204). -/
def TJ (j : Nat) : Word := if j ≤ 15 then 0x79CC4519 else 0x7A879D8A

/-- `HIV[0..7]`, the fixed initial vector (R203). -/
def HIV : Vector Word 8 :=
  #v[0x7380166F, 0x4914B2B9, 0x172442D7, 0xDA8A0600, 0xA96F30BC, 0x163138AA, 0xE38DEE4D, 0xB0FB0E4E]

/-! ### Message expansion -/

/-- `W[j]` from the words before it, for `j` their number, at least 16 (R206). -/
def nextW (w : List Word) : Word :=
  let j := w.length
  P1 (w.getD (j - 16) 0 ^^^ w.getD (j - 9) 0 ^^^ rotl (w.getD (j - 3) 0) 15) ^^^
    rotl (w.getD (j - 13) 0) 7 ^^^ w.getD (j - 6) 0

/-- `n` more words of the expansion, in increasing `j` (R206). -/
def extendW : (n : Nat) → (w : List Word) → List Word
  | 0, w => w
  | n + 1, w => extendW n (w ++ [nextW w])

/-- `W[0..67]` of a block of 64 bytes: its 16 big-endian words (R205) and 52 more (R206). -/
def expandW (b : Bytes) : List Word := extendW 52 (packWords b)

/-- `W1[j] = W[j] ^ W[j+4]` (R207). -/
def expandW1 (w : List Word) (j : Nat) : Word := w.getD j 0 ^^^ w.getD (j + 4) 0

/-! ### Compression -/

/-- The eight working words `A` to `H` (R208). -/
structure Working where
  a : Word
  b : Word
  c : Word
  d : Word
  e : Word
  f : Word
  g : Word
  h : Word
deriving DecidableEq, Repr

/-- `SS1` of round `j` (R208). -/
def roundSS1 (j : Nat) (v : Working) : Word :=
  rotl (rotl v.a 12 + v.e + rotl (TJ j) (j % 32)) 7

/-- `SS2` of round `j` (R208). -/
def roundSS2 (j : Nat) (v : Working) : Word := roundSS1 j v ^^^ rotl v.a 12

/-- `TT1` of round `j` (R208). -/
def roundTT1 (j : Nat) (w1 : Word) (v : Working) : Word := FF j v.a v.b v.c + v.d + roundSS2 j v + w1

/-- `TT2` of round `j` (R208). -/
def roundTT2 (j : Nat) (w : Word) (v : Working) : Word := GG j v.e v.f v.g + v.h + roundSS1 j v + w

/-- Round `j`: all right-hand sides use the old words (R208). -/
def hashRound (j : Nat) (w w1 : Word) (v : Working) : Working where
  a := roundTT1 j w1 v
  b := v.a
  c := rotl v.b 9
  d := v.c
  e := P0 (roundTT2 j w v)
  f := v.e
  g := rotl v.f 19
  h := v.g

/-- `n` rounds from round `j` on (R209). -/
def hashRounds (w : List Word) : (n : Nat) → (j : Nat) → Working → Working
  | 0, _, v => v
  | n + 1, j, v => hashRounds w n (j + 1) (hashRound j (w.getD j 0) (expandW1 w j) v)

/-- The working words at the start of a compression (R209). -/
def Working.ofState (v : Vector Word 8) : Working := ⟨v[0], v[1], v[2], v[3], v[4], v[5], v[6], v[7]⟩

/-- The new state: each original state word is xored with its final working word (R209). -/
def Working.xorInto (v : Vector Word 8) (w : Working) : Vector Word 8 :=
  #v[v[0] ^^^ w.a, v[1] ^^^ w.b, v[2] ^^^ w.c, v[3] ^^^ w.d,
    v[4] ^^^ w.e, v[5] ^^^ w.f, v[6] ^^^ w.g, v[7] ^^^ w.h]

/-- `compress(V, B)` for a block of 64 bytes (R209). -/
def compress (v : Vector Word 8) (b : Bytes) : Vector Word 8 :=
  Working.xorInto v (hashRounds (expandW b) 64 0 (Working.ofState v))

/-! ### Driver -/

/-- The blocks of a padded message in order, `n` of them (R213). -/
def compressBlocks : (n : Nat) → Vector Word 8 → Bytes → Vector Word 8
  | 0, v, _ => v
  | n + 1, v, q => compressBlocks n (compress v (q.take 64)) (q.drop 64)

/-- `digest_state(m)` (R213). -/
def digestState (m : Bytes) : Vector Word 8 := compressBlocks ((hpad m).length / 64) HIV (hpad m)

/-- The state as 32 big-endian bytes (R214). -/
def digestOf (v : Vector Word 8) : Bytes := unpackWords v.toList

/-- `digest(m)` (R214). -/
def digest (m : Bytes) : Bytes := digestOf (digestState m)

/-! ### Commands -/

/-- HINIT (R210). -/
def execHinit (s : State) : Host.Outcome State Fault Refusal := .next ((s.setH HIV).cmdDone 0 false)

/-- HBLOCK (R211): no padding, no key, `LEN` and `DST` ignored. -/
def execHblock (s : State) : Host.Outcome State Fault Refusal :=
  .next (match s.hblockError with
    | some e => s.cmdError e
    | none => (s.setH (compress s.h (s.memRead s.srcAddr hashBlockBytes))).cmdDone 0 false)

/-- What HASH leaves, given the final hash state: `H`, the digest at `DST`, `OUTLEN` 32 (R212). -/
def deliverDigest (v : Vector Word 8) (s : State) : State :=
  ((s.setH v).memWrite s.dstAddr (digestOf v)).cmdDone digestBytes false

/-- HASH (R212): it starts from `HIV` and does not read `H`. -/
def execHash (s : State) : Host.Outcome State Fault Refusal :=
  .next (match s.hashError with
    | some e => s.cmdError e
    | none => deliverDigest (digestState (s.memRead s.srcAddr s.lenBytes)) s)

end Sys2Proof.Machine
end

