-- ==== Sys2Proof/Machine/Flags.lean ====
section
/-! DEFINITION. The words the host reads the flags in: `STATUS` (R31) and `CTRL` (R33), computed
from the fields that are stored (log entry 8).

The CORE's arithmetic sets no flag (R130); the only flag computations are those with which a command
ends, `State.cmdError` and `State.cmdDone` of Ops.lean. -/

namespace Sys2Proof.Machine

/-- The 4-bit code of an error (R260). -/
def ErrCode.code : ErrCode → BitVec 4
  | .ok => 0
  | .illegal => 1
  | .noKey => 2
  | .length => 3
  | .resource => 4
  | .overlap => 5
  | .padding => 6

/-- `STATUS`: bits 31:12 reserved, 11:8 `ERR`, 7:3 reserved, 2 `PADBAD`, 1 `RKV`, 0 `BUSY`, which
reads 0 because a command is atomic (R31, R70, R242). -/
def State.statusWord (s : State) : Word :=
  (0 : BitVec 20) ++ s.err.code ++ (0 : BitVec 5) ++ BitVec.ofBool s.padbad ++ BitVec.ofBool s.rkv ++
    (0 : BitVec 1)

/-- `CTRL`: bits 31:1 read 0, bit 0 is `STRICT` (R33). -/
def State.ctrlWord (s : State) : Word := (0 : BitVec 31) ++ BitVec.ofBool s.strict

end Sys2Proof.Machine
end

