-- ==== Sys2Proof/Machine/RegMap.lean ====
section
/-! DEFINITION. The register map (R38, R39) and which host transactions the bus accepts (R240, R262,
R77). -/

namespace Sys2Proof.Machine

/-- The locations of the register file, by name (R38). -/
inductive Reg where
  | cmd
  | status
  | ctrl
  | src
  | dst
  | len
  | outlen
  | key (k : Fin 4)
  | iv (k : Fin 4)
  | blk (k : Fin 4)
  | h (k : Fin 8)
  | rk (i : Fin 32)
deriving DecidableEq, Repr

/-- The offsets that hold no register (R39). -/
def reservedOffsets : List Nat := [0x01C, 0x050, 0x054, 0x058, 0x05C]

/-- The location at a byte offset, or why there is none (R38 to R40, R240). -/
def Reg.atOffset (off : Nat) : Except BusError Reg :=
  if off % 4 ≠ 0 then .error .misaligned
  else if off ≥ 0x100 then .error .beyondRegisterFile
  else if off ∈ reservedOffsets then .error .reservedOffset
  else if off = 0x000 then .ok .cmd
  else if off = 0x004 then .ok .status
  else if off = 0x008 then .ok .ctrl
  else if off = 0x00C then .ok .src
  else if off = 0x010 then .ok .dst
  else if off = 0x014 then .ok .len
  else if off = 0x018 then .ok .outlen
  else if off < 0x030 then .ok (.key (Fin.ofNat 4 ((off - 0x020) / 4)))
  else if off < 0x040 then .ok (.iv (Fin.ofNat 4 ((off - 0x030) / 4)))
  else if off < 0x050 then .ok (.blk (Fin.ofNat 4 ((off - 0x040) / 4)))
  else if off < 0x080 then .ok (.h (Fin.ofNat 8 ((off - 0x060) / 4)))
  else .ok (.rk (Fin.ofNat 32 ((off - 0x080) / 4)))

/-- The offset of a location, read off the map (R38); the names of the assembler stand for it (R95). -/
def Reg.offset : Reg → Nat
  | .cmd => 0x000
  | .status => 0x004
  | .ctrl => 0x008
  | .src => 0x00C
  | .dst => 0x010
  | .len => 0x014
  | .outlen => 0x018
  | .key k => 0x020 + 4 * k
  | .iv k => 0x030 + 4 * k
  | .blk k => 0x040 + 4 * k
  | .h k => 0x060 + 4 * k
  | .rk i => 0x080 + 4 * i

/-- The read-only registers, which refuse a host write (R38, R262). -/
def Reg.readOnly : Reg → Bool
  | .status => true
  | .outlen => true
  | .rk _ => true
  | _ => false

/-- Why the bus refuses a transaction, `none` if it accepts it (R240, R262, R77). -/
def Transaction.refusal (cfg : Config) : Transaction → Option BusError
  | .wr off _ =>
    match Reg.atOffset off with
    | .error e => some e
    | .ok r => if r.readOnly then some .readOnly else none
  | .rd off =>
    match Reg.atOffset off with
    | .error e => some e
    | .ok _ => none
  | .put a v => if a + v.length ≤ cfg.bufBytes then none else some .outsideBuf
  | .get a n => if a + n ≤ cfg.bufBytes then none else some .outsideBuf

/-- The value a host read of a location returns; `CMD` reads 0 (R34, R242). -/
def State.readReg (s : State) : Reg → Word
  | .cmd => 0
  | .status => s.statusWord
  | .ctrl => s.ctrlWord
  | .src => s.src
  | .dst => s.dst
  | .len => s.len
  | .outlen => s.outlen
  | .key k => s.key[k]
  | .iv k => s.iv[k]
  | .blk k => s.blk[k]
  | .h k => s.h[k]
  | .rk i => s.rk[i]

end Sys2Proof.Machine
end

