-- ==== Sys2Proof/Machine/HostAccess.lean ====
section
/-! DEFINITION. The host's transactions WR, RD (R241, R242), PUT, GET (R77), the command write (R90 to
R93) and the reset input (R290, R291). -/

namespace Sys2Proof.Machine

/-- The word a WR to `CMD` carries: it runs the command it selects, or, if it selects none, ends with
`ERR_ILLEGAL` (R93, R261). The word is not kept (R34). -/
def commandWord (w : Word) (s : State) : Host.Outcome State Fault Refusal :=
  match decode w with
  | .ok i => exec i s
  | .error _ => .next (s.cmdError .illegal)

/-- A host write that the bus accepts (R241). -/
def writeReg (r : Reg) (d : Word) (s : State) : Host.Outcome State Fault Refusal :=
  match r with
  | .cmd => commandWord d s
  | .status => .refused (.busError .readOnly)
  | .ctrl => .next (s.writeCtrl d)
  | .src => .next (s.writeSrc d)
  | .dst => .next (s.writeDst d)
  | .len => .next (s.writeLen d)
  | .outlen => .refused (.busError .readOnly)
  | .key k => .next (s.writeKey k d)
  | .iv k => .next (s.writeIv k d)
  | .blk k => .next (s.writeBlk k d)
  | .h k => .next (s.writeH k d)
  | .rk _ => .refused (.busError .readOnly)

/-- WR (R241). -/
def hostWr (off : Nat) (d : Word) (s : State) : Host.Outcome State Fault Refusal :=
  match Reg.atOffset off with
  | .error e => .refused (.busError e)
  | .ok r => writeReg r d s

/-- RD (R242): no state of the CORE changes; the word goes to the host. -/
def hostRd (off : Nat) (s : State) : Host.Outcome State Fault Refusal :=
  match Reg.atOffset off with
  | .error e => .refused (.busError e)
  | .ok r => .next (s.respond (.word (s.readReg r)))

/-- PUT (R77). -/
def hostPut (a : Nat) (v : Bytes) (s : State) : Host.Outcome State Fault Refusal :=
  if s.fits a v.length then .next (s.memWrite a v) else .refused (.busError .outsideBuf)

/-- GET (R77). -/
def hostGet (a n : Nat) (s : State) : Host.Outcome State Fault Refusal :=
  if s.fits a n then .next (s.respond (.bytes (s.memRead a n))) else .refused (.busError .outsideBuf)

/-- One transaction (R94). -/
def transact (t : Transaction) (s : State) : Host.Outcome State Fault Refusal :=
  match t with
  | .wr off d => hostWr off d s
  | .rd off => hostRd off s
  | .put a v => hostPut a v s
  | .get a n => hostGet a n s

/-- One action of the outside world (R290, R297). -/
def hostStep (e : HostStep) (s : State) : Host.Outcome State Fault Refusal :=
  match e with
  | .bus t => transact t s
  | .reset => .next s.resetRegisters
  | .powerUp => .next s.powerUp

/-- What the CORE holds after a transaction, refused or not: a refused one changes nothing (R262) and
leaves the CORE usable (R272). -/
def State.afterTransaction (s : State) (t : Transaction) : State :=
  match transact t s with
  | .next s' => s'
  | .fault _ => s
  | .refused _ => s

/-- What the CORE holds after a list of transactions performed in order (R100), the refused ones
among them changing nothing (R262): the reading under which no list makes the CORE stop (R272). -/
def State.afterTransactions (s : State) (ts : List Transaction) : State :=
  ts.foldl State.afterTransaction s

/-! ### Pseudo-instructions (R96) -/

/-- The four writes of SETKEY, SETIV and SETBLK from the offset of word 0 (R96). -/
def setWords (base : Nat) (b : Bytes) : List Transaction :=
  [.wr base (words4 b)[0], .wr (base + 4) (words4 b)[1], .wr (base + 8) (words4 b)[2],
   .wr (base + 12) (words4 b)[3]]

/-- SETKEY (R96). -/
def setKey (b : Bytes) : List Transaction := setWords 0x020 b

/-- SETIV (R96). -/
def setIv (b : Bytes) : List Transaction := setWords 0x030 b

/-- SETBLK (R96). -/
def setBlk (b : Bytes) : List Transaction := setWords 0x040 b

/-- SETBUF (R96). -/
def setBuf (src dst len : Word) : List Transaction := [.wr 0x00C src, .wr 0x010 dst, .wr 0x014 len]

/-- A command mnemonic alone on a line (R96). -/
def command (i : Instr) : Transaction := .wr 0x000 (encode i)

end Sys2Proof.Machine
end

