-- ==== Sys2Proof/Machine/Step.lean ====
section
/-! DEFINITION. The step function, and how one command word is placed where the next step takes it.

The CORE fetches nothing and has no program counter (R32). One step is one action of the outside
world, the next of the host's list (R70, R74, R100); with none left the CORE is idle and keeps its
state (R32, R276; log entry 7). -/

namespace Sys2Proof.Machine

/-- One step. -/
def step (s : State) : Host.Outcome State Fault Refusal :=
  match s.pending with
  | [] => .next s
  | e :: rest => hostStep e (s.withPending rest)

/-- The state whose very next step is the host's write of this command word to `CMD` (R90): that write
stands before all transactions still pending (log entry 3). -/
def State.withFetchWord (s : State) (nbits w : Nat) : State :=
  s.withPending (.bus (.wr 0x000 (BitVec.ofNat 32 (w % 2 ^ nbits))) :: s.pending)

end Sys2Proof.Machine
end

