-- ==== Sys2Proof/WellFormed.lean ====
section
/-! DEFINITION. Well-formedness: of instructions, of host transactions, and of host programs.

An instruction has no operand (R90), so every one is well formed. What can be ill formed on this
hardware is a host transaction (R240, R262, R77) and a program that contains one (R262, R297). -/

namespace Sys2Proof

open Machine

/-- Every command is well formed: its word has no field to get wrong (R90). -/
def Instr.wf : Instr → Bool := fun _ => true

/-- A transaction the bus does not refuse (R240, R262, R77). -/
def Machine.Transaction.wf (cfg : Config) (t : Transaction) : Bool := (t.refusal cfg).isNone

/-- An action of the outside world; reset may be asserted at any time (R297). -/
def Machine.HostStep.wf (cfg : Config) : HostStep → Bool
  | .bus t => t.wf cfg
  | .reset => true
  | .powerUp => true

/-- A well-formed host program: no transaction of it is refused (R262, R297). -/
def Machine.programWf (cfg : Config) (p : List HostStep) : Bool := p.all (HostStep.wf cfg)

end Sys2Proof
end

