-- ==== Sys2Proof/Safety.lean ====
section
/-! DEFINITION. What the statements are about: the invariant of the CORE, frames over `BUF`, safe
runs, and the spec's pure functions in the form its own recurrences have (index by index), which the
meanings, written as loops, are held to. -/

namespace Sys2Proof.Machine

/-! ### The invariant -/

/-- What every step keeps. -/
structure State.Inv (s : State) : Prop where
  /-- The parameter is in its range (R9). -/
  cfg_wf : s.cfg.wf = true
  /-- The buffer memory is in its canonical form. -/
  buf_wf : s.buf.wf
  /-- Every byte written lies in `BUF` (R35, R64). -/
  buf_inside : ∀ c ∈ s.buf, c.1 < s.cfg.bufBytes
  /-- While `RKV` is set, `RK` is the schedule of `KEY` (R31, decision D12). -/
  rk_schedule : s.rkv = true → s.rk = keySchedule s.key
  /-- A command that failed left `OUTLEN` 0 (R30, R266). -/
  outlen_err : s.err ≠ .ok → s.outlen = 0
  /-- `PADBAD` is set beside no other error than `ERR_PADDING` (R31). -/
  padbad_err : s.padbad = true → s.err = .ok ∨ s.err = .padding
  /-- `ERR_PADDING` comes with `PADBAD` (R266). -/
  padding_padbad : s.err = .padding → s.padbad = true
  /-- `OUTLEN` counts bytes that lie in `BUF`, so it never overflows (R66). -/
  outlen_inside : s.outlen.toNat ≤ s.cfg.bufBytes

/-! ### Frames over `BUF` -/

/-- Every byte of `BUF` reads in `t` as it does in `s`. -/
def SameBuf (s t : State) : Prop := ∀ a, t.readByte a = s.readByte a

/-- Every byte of `BUF` outside `[addr, addr + n)` reads in `t` as it does in `s`. -/
def SameBufOutside (addr n : Nat) (s t : State) : Prop :=
  ∀ a, a < addr ∨ addr + n ≤ a → t.readByte a = s.readByte a

/-! ### Admission of a buffer command -/

/-- Some address lies in both `[a, a + n)` and `[b, b + m)`. -/
def RangesMeet (a n b m : Nat) : Prop := ∃ x, a ≤ x ∧ x < a + n ∧ b ≤ x ∧ x < b + m

/-- Input and output range lie in `BUF` (R66). -/
def State.InRange (s : State) (inlen outcap : Nat) : Prop :=
  s.srcAddr + inlen ≤ s.cfg.bufBytes ∧ s.dstAddr + outcap ≤ s.cfg.bufBytes

/-- The layouts R67 allows: in place, or ranges without a common address. -/
def State.LayoutAllowed (s : State) (inlen outcap : Nat) : Prop :=
  s.dstAddr = s.srcAddr ∨ ¬ RangesMeet s.srcAddr inlen s.dstAddr outcap

/-- `inlen` of the commands that read `BUF` (R65). -/
def State.inlen (s : State) : Instr → Nat
  | .hblock => 64
  | _ => s.lenBytes

/-- `outcap` of the commands that write `BUF` (R65). -/
def State.outcap (s : State) : Instr → Nat
  | .cbcenc => s.lenBytes + 16 - s.lenBytes % 16
  | .ecbenc => s.lenBytes + 16 - s.lenBytes % 16
  | .hblock => 0
  | .hash => 32
  | _ => s.lenBytes

/-- The commands that need round keys (R263). -/
def cipherCommands : List Instr := [.encblk, .decblk, .cbcenc, .cbcdec, .ecbenc, .ecbdec]

/-- The commands that decrypt a message (R264). -/
def decryptCommands : List Instr := [.cbcdec, .ecbdec]

/-- The commands with an input and an output range (R67). -/
def rangeCommands : List Instr := [.cbcenc, .cbcdec, .ecbenc, .ecbdec, .hash]

/-- Check 1: a cipher command has a valid schedule (R263). -/
def State.KeyOk (s : State) (i : Instr) : Prop := i ∈ cipherCommands → s.rkv = true

/-- Check 2: a message to decrypt has a length that is a non-zero multiple of 16 (R264). -/
def State.LengthOk (s : State) (i : Instr) : Prop :=
  i ∈ decryptCommands → s.lenBytes ≠ 0 ∧ s.lenBytes % 16 = 0

/-- Check 3: the ranges lie in `BUF`, for HBLOCK the input range alone (R265). -/
def State.RangeOk (s : State) (i : Instr) : Prop :=
  (i ∈ rangeCommands → s.InRange (s.inlen i) (s.outcap i)) ∧
  (i = .hblock → s.srcAddr + 64 ≤ s.cfg.bufBytes)

/-- Check 4: no partial overlap (R267). -/
def State.LayoutOk (s : State) (i : Instr) : Prop :=
  i ∈ rangeCommands → s.LayoutAllowed (s.inlen i) (s.outcap i)

/-- All checks before any access pass (R175). -/
def State.Admits (s : State) (i : Instr) : Prop := s.KeyOk i ∧ s.LengthOk i ∧ s.RangeOk i ∧ s.LayoutOk i

/-- `raise CmdError(code)`, its effects written out (R266). -/
def State.FailedWith (s : State) (code : ErrCode) : State :=
  { s with err := code, outlen := 0, padbad := code == .padding }

/-- `code` belongs to the first check that does not pass, in the order of R175 and R269. A check that a
command does not make passes in every state. -/
def State.FirstFailure (s : State) (i : Instr) : (code : ErrCode) → Prop
  | .noKey => ¬ s.KeyOk i
  | .length => s.KeyOk i ∧ ¬ s.LengthOk i
  | .resource => s.KeyOk i ∧ s.LengthOk i ∧ ¬ s.RangeOk i
  | .overlap => s.KeyOk i ∧ s.LengthOk i ∧ s.RangeOk i ∧ ¬ s.LayoutOk i
  | .ok => False
  | .illegal => False
  | .padding => False

/-- The command fails at the first check that does not pass, with that check's code (R175, R269). -/
def FailsAtFirstCheck (i : Instr) (s : State) : Prop :=
  ∀ code, s.FirstFailure i code → exec i s = .next (s.FailedWith code)

/-! ### The pure functions by their recurrences -/

/-- Block `i` of `n` bytes. -/
def blockAt (n : Nat) (d : Bytes) (i : Nat) : Bytes := (d.drop (n * i)).take n

/-- `rk` is `key_schedule(key)`: the 36 words `K` of R153. -/
def ScheduleSpec (key : Vector Word 4) (rk : Vector Word 32) : Prop :=
  ∃ K : Nat → Word, (∀ j : Fin 4, K j = key[j] ^^^ FK[j]) ∧
    (∀ i : Fin 32, K (i + 4) = K i ^^^ Tkey (K (i + 1) ^^^ K (i + 2) ^^^ K (i + 3) ^^^ CK.getD i 0)) ∧
    ∀ i : Fin 32, rk[i] = K (i + 4)

/-- `y` is `crypt_words(x, k)`: the 36 words `X` of R154. -/
def CryptSpec (x : Vector Word 4) (k : Fin 32 → Word) (y : Vector Word 4) : Prop :=
  ∃ X : Nat → Word, (∀ j : Fin 4, X j = x[j]) ∧
    (∀ i : Fin 32, X (i + 4) = X i ^^^ Trnd (X (i + 1) ^^^ X (i + 2) ^^^ X (i + 3) ^^^ k i)) ∧
    y = #v[X 35, X 34, X 33, X 32]

/-- `v'` is `compress(v, b)`: the words `W` of R205 and R206, `W1` of R207, and the working words after
each round of R208. -/
def CompressSpec (v : Vector Word 8) (b : Bytes) (v' : Vector Word 8) : Prop :=
  ∃ (W : Nat → Word) (R : Nat → Working),
    (∀ j, j < 16 →
      W j = pack32 (b.getD (4 * j) 0) (b.getD (4 * j + 1) 0) (b.getD (4 * j + 2) 0) (b.getD (4 * j + 3) 0)) ∧
    (∀ j, 16 ≤ j → j ≤ 67 →
      W j = P1 (W (j - 16) ^^^ W (j - 9) ^^^ rotl (W (j - 3)) 15) ^^^ rotl (W (j - 13)) 7 ^^^ W (j - 6)) ∧
    R 0 = ⟨v[0], v[1], v[2], v[3], v[4], v[5], v[6], v[7]⟩ ∧
    (∀ j, j < 64 → R (j + 1) = hashRound j (W j) (W j ^^^ W (j + 4)) (R j)) ∧
    v' = #v[v[0] ^^^ (R 64).a, v[1] ^^^ (R 64).b, v[2] ^^^ (R 64).c, v[3] ^^^ (R 64).d,
      v[4] ^^^ (R 64).e, v[5] ^^^ (R 64).f, v[6] ^^^ (R 64).g, v[7] ^^^ (R 64).h]

/-- How CBCDEC and ECBDEC deliver the decrypted bytes `d`, whose last byte is `p` (R177, R179): in
range, or out of range without `STRICT`, all of `d` is written and the command succeeds; out of range
with `STRICT` the command fails and nothing is written. -/
def Delivers (i : Instr) (s : State) (d : Bytes) : Prop :=
  let p := (d.getD (s.lenBytes - 1) 0).toNat
  let written (t : State) (n : Nat) (bad : Bool) : Prop :=
    t.memRead s.dstAddr s.lenBytes = d ∧ SameBufOutside s.dstAddr s.lenBytes s t ∧ t.outlen.toNat = n ∧
      t = { s with buf := t.buf, outlen := t.outlen, err := .ok, padbad := bad }
  (1 ≤ p ∧ p ≤ 16 → ∃ t, exec i s = .next t ∧ written t (s.lenBytes - p) false) ∧
  (p = 0 ∨ 17 ≤ p → s.strict = false → ∃ t, exec i s = .next t ∧ written t s.lenBytes true) ∧
  (p = 0 ∨ 17 ≤ p → s.strict = true → exec i s = .next (s.FailedWith .padding))

/-- HBLOCK on each of the blocks in turn, each put at `SRC` first (R215). -/
def hashBlocks : List Bytes → State → Host.Outcome State Fault Refusal
  | [], s => .next s
  | b :: bs, s =>
    match exec .hblock (s.memWrite s.srcAddr b) with
    | .next t => hashBlocks bs t
    | .fault f => .fault f
    | .refused r => .refused r

/-! ### Safe runs -/

/-- A run of `k` steps that stops nowhere (R272). -/
def RunsOn (s : State) (k : Nat) : Prop := ∃ t, Sys2Proof.core.run k s = .next t

end Sys2Proof.Machine
end

