-- ==== Sys2Proof/Certificates/Slice0/Obligations.lean ====
section
/-! DEFINITION. The statements for the provers. Each docstring names the rules of spec/ it formalises.

`SameBuf`, `SameBufOutside`, the `…Spec` predicates and the admission predicates are in Safety.lean.
A frame is written `t = { s with … }`: every field not named is as it was. -/

open Sys2Proof Sys2Proof.Machine

/-! ### Block cipher -/

/-- R150, R153. KEYEXP always succeeds: `RK` is the schedule of `KEY` by the recurrence, `RKV` is set,
the flags are those of success, and nothing else changes. -/
def Obligations.KeyexpExpandsKey : Prop :=
  decode 0x00000001#32 = .ok .keyexp ∧
  ∀ s : State, ∃ t, exec .keyexp s = .next t ∧ ScheduleSpec s.key t.rk ∧
    t = { s with rk := t.rk, rkv := true, err := .ok, padbad := false, outlen := 0 } ∧ SameBuf s t

/-- R151, R154. ENCBLK with a valid schedule replaces `BLK` by `crypt_words` with `k[i] = RK[i]`;
without one it fails with `ERR_NOKEY`. -/
def Obligations.EncblkTransformsBlock : Prop :=
  decode 0x00000002#32 = .ok .encblk ∧
  ∀ s : State,
    (s.rkv = true → ∃ t, exec .encblk s = .next t ∧ CryptSpec s.blk (fun i => s.rk[i]) t.blk ∧
      t = { s with blk := t.blk, err := .ok, padbad := false, outlen := 0 } ∧ SameBuf s t) ∧
    (s.rkv = false → exec .encblk s = .next (s.FailedWith .noKey))

/-- R152, R154. DECBLK is the same transform with `k[i] = RK[31 - i]`. -/
def Obligations.DecblkWalksKeysInReverse : Prop :=
  decode 0x00000003#32 = .ok .decblk ∧
  ∀ s : State,
    (s.rkv = true → ∃ t, exec .decblk s = .next t ∧ CryptSpec s.blk (fun i => s.rk[31 - i]) t.blk ∧
      t = { s with blk := t.blk, err := .ok, padbad := false, outlen := 0 } ∧ SameBuf s t) ∧
    (s.rkv = false → exec .decblk s = .next (s.FailedWith .noKey))

/-- R156, with the spec's own inference in it that any 32 round keys will do. The two block functions are
inverse to each other. -/
def Obligations.BlockFunctionsAreInverse : Prop :=
  ∀ (rk : Vector Word 32) (b : Bytes), b.length = 16 →
    decryptBlock (encryptBlock b rk) rk = b ∧ encryptBlock (decryptBlock b rk) rk = b

/-- From R151, R152 and R156: ENCBLK then DECBLK, or DECBLK then ENCBLK, restores `BLK`, and with it
every field but the flags and `OUTLEN`. -/
def Obligations.BlockCommandsUndoEachOther : Prop :=
  ∀ (s : State) (i j : Instr), (i, j) ∈ [(Instr.encblk, Instr.decblk), (Instr.decblk, Instr.encblk)] →
    s.rkv = true → ∃ t u, exec i s = .next t ∧ exec j t = .next u ∧
      u = { s with err := .ok, padbad := false, outlen := 0 }

/-! ### Primitives -/

/-- R120. Bit `i` of `x` becomes bit `(i + n) mod 32` of `rotl(x, n)`. -/
def Obligations.RotateMovesBits : Prop :=
  ∀ (x : Word) (n i : Nat), n ≤ 31 → i < 32 → (rotl x n).getLsbD ((i + n) % 32) = x.getLsbD i

/-- R121, R122. `pack32` is big-endian and `unpack32` is its inverse on both sides. -/
def Obligations.PackAndUnpackAreInverse : Prop :=
  (∀ b0 b1 b2 b3 : Byte,
    (pack32 b0 b1 b2 b3).toNat = b0.toNat * 2 ^ 24 + b1.toNat * 2 ^ 16 + b2.toNat * 2 ^ 8 + b3.toNat ∧
    unpack32 (pack32 b0 b1 b2 b3) = [b0, b1, b2, b3]) ∧
  ∀ w : Word, ∃ b0 b1 b2 b3, unpack32 w = [b0, b1, b2, b3] ∧ pack32 b0 b1 b2 b3 = w

/-- R131. `words4` packs bytes `4 k` to `4 k + 3` into word `k`, `bytes16` unpacks the four words in turn,
and they are inverse to each other. -/
def Obligations.BlockWordsAndBytesAreInverse : Prop :=
  (∀ b : Bytes, b.length = 16 → bytes16 (words4 b) = b ∧ ∀ k : Fin 4, (words4 b)[k] =
    pack32 (b.getD (4 * k) 0) (b.getD (4 * k + 1) 0) (b.getD (4 * k + 2) 0) (b.getD (4 * k + 3) 0)) ∧
  ∀ w : Vector Word 4, words4 (bytes16 w) = w ∧
    bytes16 w = unpack32 w[0] ++ unpack32 w[1] ++ unpack32 w[2] ++ unpack32 w[3]

/-- R124. `tau` replaces each byte of a word by its table entry, where it stands. -/
def Obligations.TauSubstitutesEachByte : Prop :=
  ∀ (x : Word) (k : Fin 4), (tau x).extractLsb' (8 * k) 8 = sbox (x.extractLsb' (8 * k) 8)

/-- The spec's own inference in R123: the substitution table is a permutation of the byte values. -/
def Obligations.SboxIsPermutation : Prop := Function.Bijective sbox

/-- The pattern R126 gives as a check: the table of round constants follows it, byte `j`, 0 the most
significant, of `CK[i]` is `((4 i + j) * 7) mod 256`. -/
def Obligations.RoundConstantsFollowPattern : Prop :=
  CK.length = 32 ∧ ∀ (i : Fin 32) (j : Fin 4),
    (unpack32 (CK.getD i 0)).getD j 0 = BitVec.ofNat 8 (((4 * i + j) * 7) % 256)

/-! ### Padding -/

/-- R170. `pad(m)` appends `p` bytes of value `p`, `1 <= p <= 16`, to a length that is a multiple of
16. -/
def Obligations.PadAppendsCountedBytes : Prop :=
  ∀ m : Bytes, ∃ p, 1 ≤ p ∧ p ≤ 16 ∧ pad m = m ++ List.replicate p (BitVec.ofNat 8 p) ∧
    (pad m).length % 16 = 0 ∧ (m.length % 16 = 0 → p = 16)

/-- R171. `unpad` looks at the last byte alone. -/
def Obligations.UnpadReadsLastByteOnly : Prop :=
  (∀ (d : Bytes) (p : Byte), 1 ≤ p.toNat → p.toNat ≤ 16 → (d.length + 1) % 16 = 0 →
    unpad (d ++ [p]) = ((d ++ [p]).take (d.length + 1 - p.toNat), false)) ∧
  (∀ (d : Bytes) (p : Byte), p.toNat = 0 ∨ 17 ≤ p.toNat → (d.length + 1) % 16 = 0 →
    unpad (d ++ [p]) = (d ++ [p], true))

/-- The spec's own inference in R171: `unpad` undoes `pad`. -/
def Obligations.UnpadUndoesPad : Prop := ∀ m : Bytes, unpad (pad m) = (m, false)

/-! ### Mode commands -/

/-- R172, R176. CBCENC fails at the first check that does not pass. Admitted, it writes, block by
block, the encryption of the padded plaintext block xored with the ciphertext block before it (the IV
for the first), and changes nothing else but `OUTLEN` and the flags. -/
def Obligations.CbcencChainsCiphertext : Prop :=
  decode 0x00000004#32 = .ok .cbcenc ∧
  ∀ s : State, FailsAtFirstCheck .cbcenc s ∧
    let outcap := s.lenBytes + 16 - s.lenBytes % 16
    (s.cfg.wf = true → s.Admits .cbcenc → ∃ t, exec .cbcenc s = .next t ∧
      (∀ i, 16 * i < outcap → t.memRead (s.dstAddr + 16 * i) 16 =
        encryptBlock
          (xor16 (blockAt 16 (pad (s.memRead s.srcAddr s.lenBytes)) i)
            (if i = 0 then bytes16 s.iv else t.memRead (s.dstAddr + 16 * (i - 1)) 16)) s.rk) ∧
      t.outlen.toNat = outcap ∧ SameBufOutside s.dstAddr outcap s t ∧
      t = { s with buf := t.buf, outlen := t.outlen, err := .ok, padbad := false })

/-- R178 and the encryption of R174. ECBENC fails at the first check that does not pass. Admitted, it
writes the encryption of each padded block on its own. -/
def Obligations.EcbencEncryptsEachBlock : Prop :=
  decode 0x00000006#32 = .ok .ecbenc ∧
  ∀ s : State, FailsAtFirstCheck .ecbenc s ∧
    let outcap := s.lenBytes + 16 - s.lenBytes % 16
    (s.cfg.wf = true → s.Admits .ecbenc → ∃ t, exec .ecbenc s = .next t ∧
      (∀ i, 16 * i < outcap → t.memRead (s.dstAddr + 16 * i) 16 =
        encryptBlock (blockAt 16 (pad (s.memRead s.srcAddr s.lenBytes)) i) s.rk) ∧
      t.outlen.toNat = outcap ∧ SameBufOutside s.dstAddr outcap s t ∧
      t = { s with buf := t.buf, outlen := t.outlen, err := .ok, padbad := false })

/-- R173, R177. CBCDEC fails at the first check that does not pass. Admitted, it decrypts each
ciphertext block, xors it with the ciphertext block before it (the IV for the first), and delivers the
result as the last byte and `STRICT` say. -/
def Obligations.CbcdecChainsCiphertext : Prop :=
  decode 0x00000005#32 = .ok .cbcdec ∧
  ∀ s : State, FailsAtFirstCheck .cbcdec s ∧
    (s.cfg.wf = true → s.Admits .cbcdec → ∃ d : Bytes, d.length = s.lenBytes ∧
      (∀ i, 16 * i < s.lenBytes → blockAt 16 d i =
        xor16 (decryptBlock (s.memRead (s.srcAddr + 16 * i) 16) s.rk)
          (if i = 0 then bytes16 s.iv else s.memRead (s.srcAddr + 16 * (i - 1)) 16)) ∧
      Delivers .cbcdec s d)

/-- R179 and the decryption of R174. ECBDEC fails at the first check that does not pass. Admitted, it
decrypts each block on its own and delivers the result as the last byte and `STRICT` say. -/
def Obligations.EcbdecDecryptsEachBlock : Prop :=
  decode 0x00000007#32 = .ok .ecbdec ∧
  ∀ s : State, FailsAtFirstCheck .ecbdec s ∧
    (s.cfg.wf = true → s.Admits .ecbdec → ∃ d : Bytes, d.length = s.lenBytes ∧
      (∀ i, 16 * i < s.lenBytes →
        blockAt 16 d i = decryptBlock (s.memRead (s.srcAddr + 16 * i) 16) s.rk) ∧
      Delivers .ecbdec s d)

/-- R175, R260, R269. Over all ten commands: each error code of a check is left exactly when that check is
the first that does not pass, `ERR_PADDING` only by a decryption under `STRICT` that passed them all, and
`ERR_ILLEGAL` by none. -/
def Obligations.ErrorCodesNameFirstFailure : Prop :=
  ∀ (i : Instr) (s t : State), exec i s = .next t →
    (∀ code ∈ [ErrCode.noKey, ErrCode.length, ErrCode.resource, ErrCode.overlap],
      t.err = code ↔ s.FirstFailure i code) ∧
    (t.err = .padding → s.Admits i ∧ i ∈ decryptCommands ∧ s.strict = true) ∧ t.err ≠ .illegal

/-- R180, with the spec's own inference in it for the codebook mode. Decryption undoes encryption in both modes, for every round-key sequence, IV and message; and in
commands: encrypting from `SRC = a`, `LEN = L` to `DST = b`, then decrypting from `SRC = b`, `LEN = OUTLEN`
to `DST = c`, leaves the original bytes at `c`, provided both are admitted. -/
def Obligations.DecryptionUndoesEncryption : Prop :=
  (∀ (rk : Vector Word 32) (iv m : Bytes), iv.length = 16 →
    unpad (cbcDecryptRaw (cbcEncrypt m rk iv) rk iv) = (m, false) ∧
    unpad (ecbDecryptRaw (ecbEncrypt m rk) rk) = (m, false)) ∧
  ∀ (s : State) (c : Word) (e d : Instr),
    (e, d) ∈ [(Instr.cbcenc, Instr.cbcdec), (Instr.ecbenc, Instr.ecbdec)] →
    s.cfg.wf = true → s.Admits e → ∃ t, exec e s = .next t ∧
      let r := { t with src := s.dst, len := t.outlen, dst := c }
      (r.Admits d → ∃ u, exec d r = .next u ∧
        u.memRead c.toNat s.lenBytes = s.memRead s.srcAddr s.lenBytes ∧ u.outlen.toNat = s.lenBytes ∧
        u.padbad = false ∧ u.err = .ok)

/-- R68. A buffer command run in place delivers what it delivers into a fresh buffer: the input is read
whole before anything is written. -/
def Obligations.InPlaceMatchesFreshBuffer : Prop :=
  ∀ (s : State) (c : Word) (i : Instr), i ∈ rangeCommands → s.dst = s.src → s.Admits i →
    ({ s with dst := c } : State).Admits i →
    ∃ t u, exec i s = .next t ∧ exec i { s with dst := c } = .next u ∧
      t.err = u.err ∧ t.padbad = u.padbad ∧ t.outlen = u.outlen ∧ t.h = u.h ∧
      (t.err = .ok → t.memRead s.srcAddr (s.outcap i) = u.memRead c.toNat (s.outcap i))

/-! ### Hash engine -/

/-- R200. The layout of the padded message. -/
def Obligations.HashPaddingLayout : Prop :=
  ∀ m : Bytes, (hpad m).length = 64 * ((m.length + 8) / 64 + 1) ∧ (hpad m).take m.length = m ∧
    (hpad m)[m.length]? = some 0x80 ∧
    (∀ j, m.length < j → j + 8 < (hpad m).length → (hpad m)[j]? = some 0x00) ∧
    ((hpad m).drop ((hpad m).length - 8)).foldl (fun n b => 256 * n + b.toNat) 0 = 8 * m.length % 2 ^ 64

/-- R208. One round, every working word by its formula. -/
def Obligations.HashRoundFormulas : Prop :=
  ∀ (j : Nat) (w w1 : Word) (v : Working),
    let ss1 := rotl (rotl v.a 12 + v.e + rotl (TJ j) (j % 32)) 7
    let ss2 := ss1 ^^^ rotl v.a 12
    let tt1 := FF j v.a v.b v.c + v.d + ss2 + w1
    let tt2 := GG j v.e v.f v.g + v.h + ss1 + w
    hashRound j w w1 v = ⟨tt1, v.a, rotl v.b 9, v.c, P0 tt2, v.e, rotl v.f 19, v.g⟩

/-- R210. HINIT loads the initial vector. -/
def Obligations.HinitLoadsInitialVector : Prop :=
  decode 0x00000008#32 = .ok .hinit ∧
  ∀ s : State, ∃ t, exec .hinit s = .next t ∧
    t.h = #v[0x7380166F, 0x4914B2B9, 0x172442D7, 0xDA8A0600, 0xA96F30BC, 0x163138AA, 0xE38DEE4D, 0xB0FB0E4E] ∧
    t = { s with h := t.h, err := .ok, padbad := false, outlen := 0 } ∧ SameBuf s t

/-- R205 to R207, R209, R211. HBLOCK compresses the 64 bytes at `SRC` into `H`, or fails with
`ERR_RESOURCE` when they do not lie in `BUF`; nothing else is looked at. -/
def Obligations.HblockCompressesBlock : Prop :=
  decode 0x00000009#32 = .ok .hblock ∧
  ∀ s : State,
    (s.srcAddr + 64 ≤ s.cfg.bufBytes → ∃ t, exec .hblock s = .next t ∧
      CompressSpec s.h (s.memRead s.srcAddr 64) t.h ∧
      t = { s with h := t.h, err := .ok, padbad := false, outlen := 0 } ∧ SameBuf s t) ∧
    (s.cfg.bufBytes < s.srcAddr + 64 → exec .hblock s = .next (s.FailedWith .resource))

/-- R212 to R214. HASH fails at the first check that does not pass. Admitted, it compresses the padded
message block by block from `HIV`, leaves the final state in `H` and its bytes at `DST`. -/
def Obligations.HashDigestsMessage : Prop :=
  decode 0x0000000A#32 = .ok .hash ∧
  ∀ s : State, FailsAtFirstCheck .hash s ∧
    let q := hpad (s.memRead s.srcAddr s.lenBytes)
    (s.Admits .hash → ∃ t, exec .hash s = .next t ∧
      (∃ V : Nat → Vector Word 8, V 0 = HIV ∧
        (∀ i, 64 * i < q.length → CompressSpec (V i) (blockAt 64 q i) (V (i + 1))) ∧
        t.h = V (q.length / 64)) ∧
      (∀ k : Fin 8, t.memRead (s.dstAddr + 4 * k) 4 = unpack32 t.h[k]) ∧
      SameBufOutside s.dstAddr 32 s t ∧
      t = { s with h := t.h, buf := t.buf, outlen := 32, err := .ok, padbad := false })

/-- The spec's own inference in R215: HASH leaves the `H` that HINIT and one HBLOCK per block of the padded message leave. -/
def Obligations.HashIsHinitThenHblocks : Prop :=
  ∀ s r : State, s.Admits .hash →
    r.srcAddr + 64 ≤ r.cfg.bufBytes →
    let q := hpad (s.memRead s.srcAddr s.lenBytes)
    ∃ t r0 u, exec .hash s = .next t ∧ exec .hinit r = .next r0 ∧
      hashBlocks ((List.range (q.length / 64)).map (blockAt 64 q)) r0 = .next u ∧ u.h = t.h ∧ u.err = .ok

/-- R212, R216. What HASH delivers depends on `SRC`, `DST`, `LEN` and `BUF` alone: not on `H`, on any
cipher register, or on any flag. -/
def Obligations.HashReadsMessageOnly : Prop :=
  ∀ s r t u : State, s.src = r.src → s.dst = r.dst → s.len = r.len → s.cfg = r.cfg → SameBuf s r →
    exec .hash s = .next t → exec .hash r = .next u →
    t.err = u.err ∧ t.outlen = u.outlen ∧ SameBuf t u ∧ (t.err = .ok → t.h = u.h)

/-! ### All commands -/

/-- The summary of R41, which the spec derives from its other rules: what a command may write, by the
table's columns. Every command ends in a next state. -/
def Obligations.CommandsWriteOnlyTheirColumns : Prop :=
  ∀ (i : Instr) (s : State), ∃ t, exec i s = .next t ∧
    t.key = s.key ∧ t.iv = s.iv ∧ t.src = s.src ∧ t.dst = s.dst ∧ t.len = s.len ∧ t.strict = s.strict ∧
    (i ≠ .keyexp → t.rk = s.rk ∧ t.rkv = s.rkv) ∧
    (i ∉ [Instr.encblk, Instr.decblk] → t.blk = s.blk) ∧
    (i ∉ [Instr.hinit, Instr.hblock, Instr.hash] → t.h = s.h) ∧
    (i ∉ [Instr.cbcenc, Instr.cbcdec, Instr.ecbenc, Instr.ecbdec, Instr.hash] → SameBuf s t) ∧
    t.cfg = s.cfg ∧ t.powerUps = s.powerUps ∧ t.pending = s.pending ∧ t.responses = s.responses

/-- R266. A command word that ends in an error sets `ERR` to its code and `OUTLEN` to 0, `PADBAD` to 1 for
`ERR_PADDING` alone, and changes nothing else. -/
def Obligations.FailureLeavesDataUnchanged : Prop :=
  ∀ (w : Word) (s t : State), commandWord w s = .next t → t.err ≠ .ok →
    t = { s with err := t.err, outlen := 0, padbad := t.err == .padding } ∧ SameBuf s t

/-- R22, R24, R33. `KEY` is read by KEYEXP alone, `IV` by CBCENC and CBCDEC alone, `CTRL.STRICT` by
CBCDEC and ECBDEC alone: for every other command another value there gives the same result. -/
def Obligations.OperandsAreReadByTheirCommandsOnly : Prop :=
  ∀ (i : Instr) (s t : State), exec i s = .next t →
    (i ≠ .keyexp → ∀ k, exec i { s with key := k } = .next { t with key := k }) ∧
    (i ∉ [Instr.cbcenc, Instr.cbcdec] → ∀ v, exec i { s with iv := v } = .next { t with iv := v }) ∧
    (i ∉ [Instr.cbcdec, Instr.ecbdec] → ∀ b, exec i { s with strict := b } = .next { t with strict := b })

/-! ### Encoding -/

/-- R92. A word selects the command of opcode `c` exactly when it is `c`, and the ten command words
are 1 to 10. -/
def Obligations.DecodeSelectsExactWords : Prop :=
  (∀ (w : Word) (i : Instr), decode w = .ok i ↔ w = encode i) ∧
  ∀ w : Word, (∃ i, decode w = .ok i) ↔ 1 ≤ w.toNat ∧ w.toNat ≤ 10

/-- R91. Command words written out from the opcode map decode to the commands they stand for. -/
def Obligations.OpcodeMapWords : Prop :=
  decode 0x00000001#32 = .ok .keyexp ∧ decode 0x00000003#32 = .ok .decblk ∧
  decode 0x00000004#32 = .ok .cbcenc ∧ decode 0x00000007#32 = .ok .ecbdec ∧
  decode 0x00000008#32 = .ok .hinit ∧ decode 0x0000000A#32 = .ok .hash

/-- R93, R261. Writing a word that selects no command to `CMD` performs no operation and ends with
`ERR_ILLEGAL`. -/
def Obligations.IllegalWordIsReported : Prop :=
  ∀ (s : State) (w : Word) (rest : List HostStep), s.pending = .bus (.wr 0x000 w) :: rest →
    (w.extractLsb' 8 24 ≠ 0 ∨ w.extractLsb' 0 8 = 0x00#8 ∨ 0x0B ≤ (w.extractLsb' 0 8).toNat) →
    step s = .next { s with err := .illegal, padbad := false, outlen := 0, pending := rest }

/-! ### The host's transactions -/

/-- The model's step (from R32, R90, R92; log entry 3): when the next transaction writes the word of `i` to `CMD`, the step is `exec i`
on the state past that transaction; and `withFetchWord` places such a transaction. -/
def Obligations.StepRunsDecodedCommand : Prop :=
  ∀ (s : State) (w : Word) (i : Instr) (rest : List HostStep), decode w = .ok i →
    (s.pending = .bus (.wr 0x000 w) :: rest → step s = exec i { s with pending := rest }) ∧
    step (s.withFetchWord 32 w.toNat) = exec i s

/-- From R32 and R276 (log entry 7): with no transaction pending the CORE is idle and keeps all its
state. -/
def Obligations.IdleKeepsState : Prop := ∀ s : State, s.pending = [] → step s = .next s

/-- R241. WR, location by location; the offsets that hold no register or a read-only one are refused. -/
def Obligations.HostWriteFollowsRegisterMap : Prop :=
  ∀ (s : State) (off : Nat) (d : Word) (rest : List HostStep), s.pending = .bus (.wr off d) :: rest →
    (off = 0x000 → step s = commandWord d { s with pending := rest }) ∧
    (off = 0x008 → step s = .next { s with strict := d.getLsbD 0, pending := rest }) ∧
    (off = 0x00C → step s = .next { s with src := d, pending := rest }) ∧
    (off = 0x010 → step s = .next { s with dst := d, pending := rest }) ∧
    (off = 0x014 → step s = .next { s with len := d, pending := rest }) ∧
    (∀ k : Fin 4, off = 0x020 + 4 * k →
      step s = .next { s with key := s.key.set k d, rkv := false, pending := rest }) ∧
    (∀ k : Fin 4, off = 0x030 + 4 * k → step s = .next { s with iv := s.iv.set k d, pending := rest }) ∧
    (∀ k : Fin 4, off = 0x040 + 4 * k → step s = .next { s with blk := s.blk.set k d, pending := rest }) ∧
    (∀ k : Fin 8, off = 0x060 + 4 * k → step s = .next { s with h := s.h.set k d, pending := rest }) ∧
    (off % 4 ≠ 0 ∨ off ≥ 0x100 ∨ off ∈ [0x01C, 0x050, 0x054, 0x058, 0x05C] ∨ off = 0x004 ∨ off = 0x018 ∨
      0x080 ≤ off → ∃ e, step s = .refused (.busError e))

/-- R242. RD, location by location: the word goes to the host and nothing of the CORE changes; the offsets
that hold no register are refused. -/
def Obligations.HostReadFollowsRegisterMap : Prop :=
  ∀ (s : State) (off : Nat) (rest : List HostStep), s.pending = .bus (.rd off) :: rest →
    let answers (v : Word) : Prop :=
      step s = .next { s with responses := s.responses ++ [.word v], pending := rest }
    (off = 0x000 → answers 0) ∧
    (off = 0x004 → answers (BitVec.ofNat 32
      (s.err.code.toNat * 2 ^ 8 + s.padbad.toNat * 2 ^ 2 + s.rkv.toNat * 2 ^ 1))) ∧
    (off = 0x008 → answers (BitVec.ofNat 32 s.strict.toNat)) ∧
    (off = 0x00C → answers s.src) ∧ (off = 0x010 → answers s.dst) ∧ (off = 0x014 → answers s.len) ∧
    (off = 0x018 → answers s.outlen) ∧
    (∀ k : Fin 4, off = 0x020 + 4 * k → answers s.key[k]) ∧
    (∀ k : Fin 4, off = 0x030 + 4 * k → answers s.iv[k]) ∧
    (∀ k : Fin 4, off = 0x040 + 4 * k → answers s.blk[k]) ∧
    (∀ k : Fin 8, off = 0x060 + 4 * k → answers s.h[k]) ∧
    (∀ i : Fin 32, off = 0x080 + 4 * i → answers s.rk[i]) ∧
    (off % 4 ≠ 0 ∨ off ≥ 0x100 ∨ off ∈ [0x01C, 0x050, 0x054, 0x058, 0x05C] →
      ∃ e, step s = .refused (.busError e))

/-- R240, R262, R77. Which transactions are refused, exactly; and a refused one leaves everything as it
was. -/
def Obligations.BusRefusesExactlyIllFormed : Prop :=
  ∀ (s : State) (t : Transaction) (rest : List HostStep), s.pending = .bus t :: rest →
    let noRegister (off : Nat) : Prop := off % 4 ≠ 0 ∨ 0x100 ≤ off ∨ off ∈ [0x01C, 0x050, 0x054, 0x058, 0x05C]
    ((∃ e, step s = .refused (.busError e)) ↔
      match t with
      | .wr off _ => noRegister off ∨ off = 0x004 ∨ off = 0x018 ∨ 0x080 ≤ off
      | .rd off => noRegister off
      | .put a v => s.cfg.bufBytes < a + v.length
      | .get a n => s.cfg.bufBytes < a + n) ∧
    ((∃ e, step s = .refused (.busError e)) → s.afterTransaction t = s)

/-- R260, R31. The word read as `STATUS`, bit by bit. -/
def Obligations.StatusWordBits : Prop :=
  ∀ s : State, s.statusWord.getLsbD 0 = false ∧ s.statusWord.getLsbD 1 = s.rkv ∧
    s.statusWord.getLsbD 2 = s.padbad ∧ (∀ i, 3 ≤ i → i ≤ 7 → s.statusWord.getLsbD i = false) ∧
    (s.statusWord.toNat / 2 ^ 8 = match s.err with
      | .ok => 0 | .illegal => 1 | .noKey => 2 | .length => 3 | .resource => 4 | .overlap => 5 | .padding => 6)

/-- From R241 and R242: a data register reads back the word just written to it, and `CTRL` bit 0 of that
word. -/
def Obligations.RegisterReadsBackWrite : Prop :=
  ∀ (s : State) (off : Nat) (d : Word) (rest : List HostStep),
    s.pending = .bus (.wr off d) :: .bus (.rd off) :: rest →
    let readsBack (v : Word) : Prop :=
      ∃ t u, step s = .next t ∧ step t = .next u ∧ u.responses = s.responses ++ [.word v]
    (off % 4 = 0 → (0x00C ≤ off ∧ off ≤ 0x014 ∨ 0x020 ≤ off ∧ off < 0x050 ∨ 0x060 ≤ off ∧ off < 0x080) →
      readsBack d) ∧
    (off = 0x008 → readsBack (d &&& 1))

/-- R77. PUT stores its bytes and GET returns the bytes that lie there; outside `BUF` both are refused. -/
def Obligations.PutStoresAndGetReads : Prop :=
  (∀ (s : State) (a : Nat) (v : Bytes) (rest : List HostStep), s.pending = .bus (.put a v) :: rest →
    (a + v.length ≤ s.cfg.bufBytes → ∃ t, step s = .next t ∧
      (∀ i, i < v.length → t.readByte (a + i) = v.getD i 0) ∧ SameBufOutside a v.length s t ∧
      t = { s with buf := t.buf, pending := rest }) ∧
    (s.cfg.bufBytes < a + v.length → step s = .refused (.busError .outsideBuf))) ∧
  ∀ (s : State) (a n : Nat) (rest : List HostStep), s.pending = .bus (.get a n) :: rest →
    (a + n ≤ s.cfg.bufBytes → ∃ v : Bytes, v.length = n ∧ (∀ i, i < n → v.getD i 0 = s.readByte (a + i)) ∧
      step s = .next { s with responses := s.responses ++ [.bytes v], pending := rest }) ∧
    (s.cfg.bufBytes < a + n → step s = .refused (.busError .outsideBuf))

/-- From R96 and R241: what the pseudo-instructions leave. `SETKEY`, `SETIV` and `SETBLK` write the whole
register array, the key also clears `RKV`; a mnemonic alone runs its command. -/
def Obligations.PseudoInstructionsWriteWholeRegisters : Prop :=
  (∀ (i : Instr) (s : State), transact (command i) s = exec i s) ∧
  ∀ (s : State) (b : Bytes) (src dst len : Word), b.length = 16 →
    s.afterTransactions (setKey b) = { s with key := words4 b, rkv := false } ∧
    s.afterTransactions (setIv b) = { s with iv := words4 b } ∧
    s.afterTransactions (setBlk b) = { s with blk := words4 b } ∧
    s.afterTransactions (setBuf src dst len) = { s with src := src, dst := dst, len := len }

/-- R22, R263. A host write to `KEY[k]`, whatever its value, clears `RKV`, and every cipher command
then fails with `ERR_NOKEY`. -/
def Obligations.KeyWriteInvalidatesSchedule : Prop :=
  ∀ (s : State) (k : Fin 4) (d : Word) (rest : List HostStep),
    s.pending = .bus (.wr (0x020 + 4 * k) d) :: rest →
    ∃ t, step s = .next t ∧ t.rkv = false ∧ t.rk = s.rk ∧
      ∀ i ∈ [Instr.encblk, Instr.decblk, Instr.cbcenc, Instr.cbcdec, Instr.ecbenc, Instr.ecbdec],
        exec i t = .next (t.FailedWith .noKey)

/-- R23. `RK` changes only by KEYEXP or a reset. -/
def Obligations.RoundKeysChangeOnlyByKeyexp : Prop :=
  ∀ s t : State, step s = .next t → t.rk ≠ s.rk →
    ∃ e rest, s.pending = e :: rest ∧ e ∈ [.bus (.wr 0x000 0x00000001), .reset, .powerUp]

/-! ### Reset -/

/-- R40, R290, R291. The reset input zeroes every register and leaves `BUF` as it is. -/
def Obligations.ResetZeroesRegistersKeepsBuf : Prop :=
  ∀ (s : State) (rest : List HostStep), s.pending = .reset :: rest → ∃ t, step s = .next t ∧
    t.key = .replicate 4 0 ∧ t.rk = .replicate 32 0 ∧ t.iv = .replicate 4 0 ∧ t.blk = .replicate 4 0 ∧
    t.h = .replicate 8 0 ∧ t.src = 0 ∧ t.dst = 0 ∧ t.len = 0 ∧ t.outlen = 0 ∧ t.ctrlWord = 0 ∧
    t.statusWord = 0 ∧ SameBuf s t ∧ t.pending = rest

/-- From R291: power-up resets the registers and leaves every byte of `BUF` at the free value of the new
power-up (log entries 2 and 5). -/
def Obligations.PowerUpForgetsBuf : Prop :=
  ∀ (s : State) (rest : List HostStep), s.pending = .powerUp :: rest → ∃ t, step s = .next t ∧
    t.key = .replicate 4 0 ∧ t.rk = .replicate 32 0 ∧ t.iv = .replicate 4 0 ∧ t.blk = .replicate 4 0 ∧
    t.h = .replicate 8 0 ∧ t.src = 0 ∧ t.dst = 0 ∧ t.len = 0 ∧ t.outlen = 0 ∧ t.ctrlWord = 0 ∧
    t.statusWord = 0 ∧ (∀ a, t.readByte a = Config.powerUpByte (s.powerUps + 1) a) ∧ t.pending = rest

/-- R40, R290. The state after reset, register by register, and idle. -/
def Obligations.ResetStateValues : Prop :=
  State.reset.key = .replicate 4 0 ∧ State.reset.rk = .replicate 32 0 ∧ State.reset.iv = .replicate 4 0 ∧
  State.reset.blk = .replicate 4 0 ∧ State.reset.h = .replicate 8 0 ∧ State.reset.src = 0 ∧
  State.reset.dst = 0 ∧ State.reset.len = 0 ∧ State.reset.outlen = 0 ∧ State.reset.ctrlWord = 0 ∧
  State.reset.statusWord = 0 ∧ State.reset.pending = []

/-! ### Whole runs -/

/-- The invariant holds after reset. -/
def Obligations.InvariantHoldsAtReset : Prop := State.reset.Inv

/-- The invariant is kept by every step, from every state that has it. -/
def Obligations.StepKeepsInvariant : Prop := ∀ s t : State, s.Inv → step s = .next t → t.Inv

/-- From R100 and R272: a well-formed host program runs to its end and stops nowhere, whatever the state it
starts in. The list it is held in is the model's own (log entry 3); that the CORE still runs afterwards rests
on the idle step, which the model deduces from R32 and R276 (log entry 7). -/
def Obligations.WellFormedProgramRunsToEnd : Prop :=
  ∀ s : State, programWf s.cfg s.pending = true →
    (∃ t, Sys2Proof.core.run s.pending.length s = .next t ∧ t.pending = []) ∧ ∀ k, RunsOn s k

/-- From R100, R262 and R272: while the pending list has no refused transaction, a step ends in a next state,
takes exactly its first entry off, and leaves a list that has none either, `BUF_BYTES` being as before. The
list is the model's own (log entry 3), and so is the idle step on an empty one (log entry 7). -/
def Obligations.StepKeepsProgramWellFormed : Prop :=
  ∀ s : State, programWf s.cfg s.pending = true →
    ∃ t, step s = .next t ∧ t.pending = s.pending.tail ∧ t.cfg = s.cfg ∧ programWf t.cfg t.pending = true
end

