-- ==== Sys2Proof/Laws/State.lean ====
section
/-! SUPPORT. One lemma per field per update of the state, so that no proof unfolds a record update. -/

namespace Sys2Proof.Machine

/-! ### `State.memWrite` -/

@[simp] theorem State.memWrite_key (s : State) (a : Nat) (v : Bytes) :
    (s.memWrite a v).key = s.key := rfl
@[simp] theorem State.memWrite_rk (s : State) (a : Nat) (v : Bytes) :
    (s.memWrite a v).rk = s.rk := rfl
@[simp] theorem State.memWrite_iv (s : State) (a : Nat) (v : Bytes) :
    (s.memWrite a v).iv = s.iv := rfl
@[simp] theorem State.memWrite_blk (s : State) (a : Nat) (v : Bytes) :
    (s.memWrite a v).blk = s.blk := rfl
@[simp] theorem State.memWrite_h (s : State) (a : Nat) (v : Bytes) :
    (s.memWrite a v).h = s.h := rfl
@[simp] theorem State.memWrite_src (s : State) (a : Nat) (v : Bytes) :
    (s.memWrite a v).src = s.src := rfl
@[simp] theorem State.memWrite_dst (s : State) (a : Nat) (v : Bytes) :
    (s.memWrite a v).dst = s.dst := rfl
@[simp] theorem State.memWrite_len (s : State) (a : Nat) (v : Bytes) :
    (s.memWrite a v).len = s.len := rfl
@[simp] theorem State.memWrite_outlen (s : State) (a : Nat) (v : Bytes) :
    (s.memWrite a v).outlen = s.outlen := rfl
@[simp] theorem State.memWrite_strict (s : State) (a : Nat) (v : Bytes) :
    (s.memWrite a v).strict = s.strict := rfl
@[simp] theorem State.memWrite_rkv (s : State) (a : Nat) (v : Bytes) :
    (s.memWrite a v).rkv = s.rkv := rfl
@[simp] theorem State.memWrite_padbad (s : State) (a : Nat) (v : Bytes) :
    (s.memWrite a v).padbad = s.padbad := rfl
@[simp] theorem State.memWrite_err (s : State) (a : Nat) (v : Bytes) :
    (s.memWrite a v).err = s.err := rfl
@[simp] theorem State.memWrite_buf (s : State) (a : Nat) (v : Bytes) :
    (s.memWrite a v).buf = s.buf.setBytes a v := rfl
@[simp] theorem State.memWrite_cfg (s : State) (a : Nat) (v : Bytes) :
    (s.memWrite a v).cfg = s.cfg := rfl
@[simp] theorem State.memWrite_powerUps (s : State) (a : Nat) (v : Bytes) :
    (s.memWrite a v).powerUps = s.powerUps := rfl
@[simp] theorem State.memWrite_pending (s : State) (a : Nat) (v : Bytes) :
    (s.memWrite a v).pending = s.pending := rfl
@[simp] theorem State.memWrite_responses (s : State) (a : Nat) (v : Bytes) :
    (s.memWrite a v).responses = s.responses := rfl

/-! ### `State.cmdError` -/

@[simp] theorem State.cmdError_key (s : State) (c : ErrCode) :
    (s.cmdError c).key = s.key := rfl
@[simp] theorem State.cmdError_rk (s : State) (c : ErrCode) :
    (s.cmdError c).rk = s.rk := rfl
@[simp] theorem State.cmdError_iv (s : State) (c : ErrCode) :
    (s.cmdError c).iv = s.iv := rfl
@[simp] theorem State.cmdError_blk (s : State) (c : ErrCode) :
    (s.cmdError c).blk = s.blk := rfl
@[simp] theorem State.cmdError_h (s : State) (c : ErrCode) :
    (s.cmdError c).h = s.h := rfl
@[simp] theorem State.cmdError_src (s : State) (c : ErrCode) :
    (s.cmdError c).src = s.src := rfl
@[simp] theorem State.cmdError_dst (s : State) (c : ErrCode) :
    (s.cmdError c).dst = s.dst := rfl
@[simp] theorem State.cmdError_len (s : State) (c : ErrCode) :
    (s.cmdError c).len = s.len := rfl
@[simp] theorem State.cmdError_outlen (s : State) (c : ErrCode) :
    (s.cmdError c).outlen = 0 := rfl
@[simp] theorem State.cmdError_strict (s : State) (c : ErrCode) :
    (s.cmdError c).strict = s.strict := rfl
@[simp] theorem State.cmdError_rkv (s : State) (c : ErrCode) :
    (s.cmdError c).rkv = s.rkv := rfl
@[simp] theorem State.cmdError_padbad (s : State) (c : ErrCode) :
    (s.cmdError c).padbad = decide (c = .padding) := rfl
@[simp] theorem State.cmdError_err (s : State) (c : ErrCode) :
    (s.cmdError c).err = c := rfl
@[simp] theorem State.cmdError_buf (s : State) (c : ErrCode) :
    (s.cmdError c).buf = s.buf := rfl
@[simp] theorem State.cmdError_cfg (s : State) (c : ErrCode) :
    (s.cmdError c).cfg = s.cfg := rfl
@[simp] theorem State.cmdError_powerUps (s : State) (c : ErrCode) :
    (s.cmdError c).powerUps = s.powerUps := rfl
@[simp] theorem State.cmdError_pending (s : State) (c : ErrCode) :
    (s.cmdError c).pending = s.pending := rfl
@[simp] theorem State.cmdError_responses (s : State) (c : ErrCode) :
    (s.cmdError c).responses = s.responses := rfl

/-! ### `State.cmdDone` -/

@[simp] theorem State.cmdDone_key (s : State) (n : Nat) (p : Bool) :
    (s.cmdDone n p).key = s.key := rfl
@[simp] theorem State.cmdDone_rk (s : State) (n : Nat) (p : Bool) :
    (s.cmdDone n p).rk = s.rk := rfl
@[simp] theorem State.cmdDone_iv (s : State) (n : Nat) (p : Bool) :
    (s.cmdDone n p).iv = s.iv := rfl
@[simp] theorem State.cmdDone_blk (s : State) (n : Nat) (p : Bool) :
    (s.cmdDone n p).blk = s.blk := rfl
@[simp] theorem State.cmdDone_h (s : State) (n : Nat) (p : Bool) :
    (s.cmdDone n p).h = s.h := rfl
@[simp] theorem State.cmdDone_src (s : State) (n : Nat) (p : Bool) :
    (s.cmdDone n p).src = s.src := rfl
@[simp] theorem State.cmdDone_dst (s : State) (n : Nat) (p : Bool) :
    (s.cmdDone n p).dst = s.dst := rfl
@[simp] theorem State.cmdDone_len (s : State) (n : Nat) (p : Bool) :
    (s.cmdDone n p).len = s.len := rfl
@[simp] theorem State.cmdDone_outlen (s : State) (n : Nat) (p : Bool) :
    (s.cmdDone n p).outlen = BitVec.ofNat 32 n := rfl
@[simp] theorem State.cmdDone_strict (s : State) (n : Nat) (p : Bool) :
    (s.cmdDone n p).strict = s.strict := rfl
@[simp] theorem State.cmdDone_rkv (s : State) (n : Nat) (p : Bool) :
    (s.cmdDone n p).rkv = s.rkv := rfl
@[simp] theorem State.cmdDone_padbad (s : State) (n : Nat) (p : Bool) :
    (s.cmdDone n p).padbad = p := rfl
@[simp] theorem State.cmdDone_err (s : State) (n : Nat) (p : Bool) :
    (s.cmdDone n p).err = .ok := rfl
@[simp] theorem State.cmdDone_buf (s : State) (n : Nat) (p : Bool) :
    (s.cmdDone n p).buf = s.buf := rfl
@[simp] theorem State.cmdDone_cfg (s : State) (n : Nat) (p : Bool) :
    (s.cmdDone n p).cfg = s.cfg := rfl
@[simp] theorem State.cmdDone_powerUps (s : State) (n : Nat) (p : Bool) :
    (s.cmdDone n p).powerUps = s.powerUps := rfl
@[simp] theorem State.cmdDone_pending (s : State) (n : Nat) (p : Bool) :
    (s.cmdDone n p).pending = s.pending := rfl
@[simp] theorem State.cmdDone_responses (s : State) (n : Nat) (p : Bool) :
    (s.cmdDone n p).responses = s.responses := rfl

/-! ### `State.setSchedule` -/

@[simp] theorem State.setSchedule_key (s : State) (v : Vector Word 32) :
    (s.setSchedule v).key = s.key := rfl
@[simp] theorem State.setSchedule_rk (s : State) (v : Vector Word 32) :
    (s.setSchedule v).rk = v := rfl
@[simp] theorem State.setSchedule_iv (s : State) (v : Vector Word 32) :
    (s.setSchedule v).iv = s.iv := rfl
@[simp] theorem State.setSchedule_blk (s : State) (v : Vector Word 32) :
    (s.setSchedule v).blk = s.blk := rfl
@[simp] theorem State.setSchedule_h (s : State) (v : Vector Word 32) :
    (s.setSchedule v).h = s.h := rfl
@[simp] theorem State.setSchedule_src (s : State) (v : Vector Word 32) :
    (s.setSchedule v).src = s.src := rfl
@[simp] theorem State.setSchedule_dst (s : State) (v : Vector Word 32) :
    (s.setSchedule v).dst = s.dst := rfl
@[simp] theorem State.setSchedule_len (s : State) (v : Vector Word 32) :
    (s.setSchedule v).len = s.len := rfl
@[simp] theorem State.setSchedule_outlen (s : State) (v : Vector Word 32) :
    (s.setSchedule v).outlen = s.outlen := rfl
@[simp] theorem State.setSchedule_strict (s : State) (v : Vector Word 32) :
    (s.setSchedule v).strict = s.strict := rfl
@[simp] theorem State.setSchedule_rkv (s : State) (v : Vector Word 32) :
    (s.setSchedule v).rkv = true := rfl
@[simp] theorem State.setSchedule_padbad (s : State) (v : Vector Word 32) :
    (s.setSchedule v).padbad = s.padbad := rfl
@[simp] theorem State.setSchedule_err (s : State) (v : Vector Word 32) :
    (s.setSchedule v).err = s.err := rfl
@[simp] theorem State.setSchedule_buf (s : State) (v : Vector Word 32) :
    (s.setSchedule v).buf = s.buf := rfl
@[simp] theorem State.setSchedule_cfg (s : State) (v : Vector Word 32) :
    (s.setSchedule v).cfg = s.cfg := rfl
@[simp] theorem State.setSchedule_powerUps (s : State) (v : Vector Word 32) :
    (s.setSchedule v).powerUps = s.powerUps := rfl
@[simp] theorem State.setSchedule_pending (s : State) (v : Vector Word 32) :
    (s.setSchedule v).pending = s.pending := rfl
@[simp] theorem State.setSchedule_responses (s : State) (v : Vector Word 32) :
    (s.setSchedule v).responses = s.responses := rfl

/-! ### `State.setBlk` -/

@[simp] theorem State.setBlk_key (s : State) (v : Vector Word 4) :
    (s.setBlk v).key = s.key := rfl
@[simp] theorem State.setBlk_rk (s : State) (v : Vector Word 4) :
    (s.setBlk v).rk = s.rk := rfl
@[simp] theorem State.setBlk_iv (s : State) (v : Vector Word 4) :
    (s.setBlk v).iv = s.iv := rfl
@[simp] theorem State.setBlk_blk (s : State) (v : Vector Word 4) :
    (s.setBlk v).blk = v := rfl
@[simp] theorem State.setBlk_h (s : State) (v : Vector Word 4) :
    (s.setBlk v).h = s.h := rfl
@[simp] theorem State.setBlk_src (s : State) (v : Vector Word 4) :
    (s.setBlk v).src = s.src := rfl
@[simp] theorem State.setBlk_dst (s : State) (v : Vector Word 4) :
    (s.setBlk v).dst = s.dst := rfl
@[simp] theorem State.setBlk_len (s : State) (v : Vector Word 4) :
    (s.setBlk v).len = s.len := rfl
@[simp] theorem State.setBlk_outlen (s : State) (v : Vector Word 4) :
    (s.setBlk v).outlen = s.outlen := rfl
@[simp] theorem State.setBlk_strict (s : State) (v : Vector Word 4) :
    (s.setBlk v).strict = s.strict := rfl
@[simp] theorem State.setBlk_rkv (s : State) (v : Vector Word 4) :
    (s.setBlk v).rkv = s.rkv := rfl
@[simp] theorem State.setBlk_padbad (s : State) (v : Vector Word 4) :
    (s.setBlk v).padbad = s.padbad := rfl
@[simp] theorem State.setBlk_err (s : State) (v : Vector Word 4) :
    (s.setBlk v).err = s.err := rfl
@[simp] theorem State.setBlk_buf (s : State) (v : Vector Word 4) :
    (s.setBlk v).buf = s.buf := rfl
@[simp] theorem State.setBlk_cfg (s : State) (v : Vector Word 4) :
    (s.setBlk v).cfg = s.cfg := rfl
@[simp] theorem State.setBlk_powerUps (s : State) (v : Vector Word 4) :
    (s.setBlk v).powerUps = s.powerUps := rfl
@[simp] theorem State.setBlk_pending (s : State) (v : Vector Word 4) :
    (s.setBlk v).pending = s.pending := rfl
@[simp] theorem State.setBlk_responses (s : State) (v : Vector Word 4) :
    (s.setBlk v).responses = s.responses := rfl

/-! ### `State.setH` -/

@[simp] theorem State.setH_key (s : State) (v : Vector Word 8) :
    (s.setH v).key = s.key := rfl
@[simp] theorem State.setH_rk (s : State) (v : Vector Word 8) :
    (s.setH v).rk = s.rk := rfl
@[simp] theorem State.setH_iv (s : State) (v : Vector Word 8) :
    (s.setH v).iv = s.iv := rfl
@[simp] theorem State.setH_blk (s : State) (v : Vector Word 8) :
    (s.setH v).blk = s.blk := rfl
@[simp] theorem State.setH_h (s : State) (v : Vector Word 8) :
    (s.setH v).h = v := rfl
@[simp] theorem State.setH_src (s : State) (v : Vector Word 8) :
    (s.setH v).src = s.src := rfl
@[simp] theorem State.setH_dst (s : State) (v : Vector Word 8) :
    (s.setH v).dst = s.dst := rfl
@[simp] theorem State.setH_len (s : State) (v : Vector Word 8) :
    (s.setH v).len = s.len := rfl
@[simp] theorem State.setH_outlen (s : State) (v : Vector Word 8) :
    (s.setH v).outlen = s.outlen := rfl
@[simp] theorem State.setH_strict (s : State) (v : Vector Word 8) :
    (s.setH v).strict = s.strict := rfl
@[simp] theorem State.setH_rkv (s : State) (v : Vector Word 8) :
    (s.setH v).rkv = s.rkv := rfl
@[simp] theorem State.setH_padbad (s : State) (v : Vector Word 8) :
    (s.setH v).padbad = s.padbad := rfl
@[simp] theorem State.setH_err (s : State) (v : Vector Word 8) :
    (s.setH v).err = s.err := rfl
@[simp] theorem State.setH_buf (s : State) (v : Vector Word 8) :
    (s.setH v).buf = s.buf := rfl
@[simp] theorem State.setH_cfg (s : State) (v : Vector Word 8) :
    (s.setH v).cfg = s.cfg := rfl
@[simp] theorem State.setH_powerUps (s : State) (v : Vector Word 8) :
    (s.setH v).powerUps = s.powerUps := rfl
@[simp] theorem State.setH_pending (s : State) (v : Vector Word 8) :
    (s.setH v).pending = s.pending := rfl
@[simp] theorem State.setH_responses (s : State) (v : Vector Word 8) :
    (s.setH v).responses = s.responses := rfl

/-! ### `State.writeKey` -/

@[simp] theorem State.writeKey_key (s : State) (k : Fin 4) (d : Word) :
    (s.writeKey k d).key = s.key.set k d := rfl
@[simp] theorem State.writeKey_rk (s : State) (k : Fin 4) (d : Word) :
    (s.writeKey k d).rk = s.rk := rfl
@[simp] theorem State.writeKey_iv (s : State) (k : Fin 4) (d : Word) :
    (s.writeKey k d).iv = s.iv := rfl
@[simp] theorem State.writeKey_blk (s : State) (k : Fin 4) (d : Word) :
    (s.writeKey k d).blk = s.blk := rfl
@[simp] theorem State.writeKey_h (s : State) (k : Fin 4) (d : Word) :
    (s.writeKey k d).h = s.h := rfl
@[simp] theorem State.writeKey_src (s : State) (k : Fin 4) (d : Word) :
    (s.writeKey k d).src = s.src := rfl
@[simp] theorem State.writeKey_dst (s : State) (k : Fin 4) (d : Word) :
    (s.writeKey k d).dst = s.dst := rfl
@[simp] theorem State.writeKey_len (s : State) (k : Fin 4) (d : Word) :
    (s.writeKey k d).len = s.len := rfl
@[simp] theorem State.writeKey_outlen (s : State) (k : Fin 4) (d : Word) :
    (s.writeKey k d).outlen = s.outlen := rfl
@[simp] theorem State.writeKey_strict (s : State) (k : Fin 4) (d : Word) :
    (s.writeKey k d).strict = s.strict := rfl
@[simp] theorem State.writeKey_rkv (s : State) (k : Fin 4) (d : Word) :
    (s.writeKey k d).rkv = false := rfl
@[simp] theorem State.writeKey_padbad (s : State) (k : Fin 4) (d : Word) :
    (s.writeKey k d).padbad = s.padbad := rfl
@[simp] theorem State.writeKey_err (s : State) (k : Fin 4) (d : Word) :
    (s.writeKey k d).err = s.err := rfl
@[simp] theorem State.writeKey_buf (s : State) (k : Fin 4) (d : Word) :
    (s.writeKey k d).buf = s.buf := rfl
@[simp] theorem State.writeKey_cfg (s : State) (k : Fin 4) (d : Word) :
    (s.writeKey k d).cfg = s.cfg := rfl
@[simp] theorem State.writeKey_powerUps (s : State) (k : Fin 4) (d : Word) :
    (s.writeKey k d).powerUps = s.powerUps := rfl
@[simp] theorem State.writeKey_pending (s : State) (k : Fin 4) (d : Word) :
    (s.writeKey k d).pending = s.pending := rfl
@[simp] theorem State.writeKey_responses (s : State) (k : Fin 4) (d : Word) :
    (s.writeKey k d).responses = s.responses := rfl

/-! ### `State.writeIv` -/

@[simp] theorem State.writeIv_key (s : State) (k : Fin 4) (d : Word) :
    (s.writeIv k d).key = s.key := rfl
@[simp] theorem State.writeIv_rk (s : State) (k : Fin 4) (d : Word) :
    (s.writeIv k d).rk = s.rk := rfl
@[simp] theorem State.writeIv_iv (s : State) (k : Fin 4) (d : Word) :
    (s.writeIv k d).iv = s.iv.set k d := rfl
@[simp] theorem State.writeIv_blk (s : State) (k : Fin 4) (d : Word) :
    (s.writeIv k d).blk = s.blk := rfl
@[simp] theorem State.writeIv_h (s : State) (k : Fin 4) (d : Word) :
    (s.writeIv k d).h = s.h := rfl
@[simp] theorem State.writeIv_src (s : State) (k : Fin 4) (d : Word) :
    (s.writeIv k d).src = s.src := rfl
@[simp] theorem State.writeIv_dst (s : State) (k : Fin 4) (d : Word) :
    (s.writeIv k d).dst = s.dst := rfl
@[simp] theorem State.writeIv_len (s : State) (k : Fin 4) (d : Word) :
    (s.writeIv k d).len = s.len := rfl
@[simp] theorem State.writeIv_outlen (s : State) (k : Fin 4) (d : Word) :
    (s.writeIv k d).outlen = s.outlen := rfl
@[simp] theorem State.writeIv_strict (s : State) (k : Fin 4) (d : Word) :
    (s.writeIv k d).strict = s.strict := rfl
@[simp] theorem State.writeIv_rkv (s : State) (k : Fin 4) (d : Word) :
    (s.writeIv k d).rkv = s.rkv := rfl
@[simp] theorem State.writeIv_padbad (s : State) (k : Fin 4) (d : Word) :
    (s.writeIv k d).padbad = s.padbad := rfl
@[simp] theorem State.writeIv_err (s : State) (k : Fin 4) (d : Word) :
    (s.writeIv k d).err = s.err := rfl
@[simp] theorem State.writeIv_buf (s : State) (k : Fin 4) (d : Word) :
    (s.writeIv k d).buf = s.buf := rfl
@[simp] theorem State.writeIv_cfg (s : State) (k : Fin 4) (d : Word) :
    (s.writeIv k d).cfg = s.cfg := rfl
@[simp] theorem State.writeIv_powerUps (s : State) (k : Fin 4) (d : Word) :
    (s.writeIv k d).powerUps = s.powerUps := rfl
@[simp] theorem State.writeIv_pending (s : State) (k : Fin 4) (d : Word) :
    (s.writeIv k d).pending = s.pending := rfl
@[simp] theorem State.writeIv_responses (s : State) (k : Fin 4) (d : Word) :
    (s.writeIv k d).responses = s.responses := rfl

/-! ### `State.writeBlk` -/

@[simp] theorem State.writeBlk_key (s : State) (k : Fin 4) (d : Word) :
    (s.writeBlk k d).key = s.key := rfl
@[simp] theorem State.writeBlk_rk (s : State) (k : Fin 4) (d : Word) :
    (s.writeBlk k d).rk = s.rk := rfl
@[simp] theorem State.writeBlk_iv (s : State) (k : Fin 4) (d : Word) :
    (s.writeBlk k d).iv = s.iv := rfl
@[simp] theorem State.writeBlk_blk (s : State) (k : Fin 4) (d : Word) :
    (s.writeBlk k d).blk = s.blk.set k d := rfl
@[simp] theorem State.writeBlk_h (s : State) (k : Fin 4) (d : Word) :
    (s.writeBlk k d).h = s.h := rfl
@[simp] theorem State.writeBlk_src (s : State) (k : Fin 4) (d : Word) :
    (s.writeBlk k d).src = s.src := rfl
@[simp] theorem State.writeBlk_dst (s : State) (k : Fin 4) (d : Word) :
    (s.writeBlk k d).dst = s.dst := rfl
@[simp] theorem State.writeBlk_len (s : State) (k : Fin 4) (d : Word) :
    (s.writeBlk k d).len = s.len := rfl
@[simp] theorem State.writeBlk_outlen (s : State) (k : Fin 4) (d : Word) :
    (s.writeBlk k d).outlen = s.outlen := rfl
@[simp] theorem State.writeBlk_strict (s : State) (k : Fin 4) (d : Word) :
    (s.writeBlk k d).strict = s.strict := rfl
@[simp] theorem State.writeBlk_rkv (s : State) (k : Fin 4) (d : Word) :
    (s.writeBlk k d).rkv = s.rkv := rfl
@[simp] theorem State.writeBlk_padbad (s : State) (k : Fin 4) (d : Word) :
    (s.writeBlk k d).padbad = s.padbad := rfl
@[simp] theorem State.writeBlk_err (s : State) (k : Fin 4) (d : Word) :
    (s.writeBlk k d).err = s.err := rfl
@[simp] theorem State.writeBlk_buf (s : State) (k : Fin 4) (d : Word) :
    (s.writeBlk k d).buf = s.buf := rfl
@[simp] theorem State.writeBlk_cfg (s : State) (k : Fin 4) (d : Word) :
    (s.writeBlk k d).cfg = s.cfg := rfl
@[simp] theorem State.writeBlk_powerUps (s : State) (k : Fin 4) (d : Word) :
    (s.writeBlk k d).powerUps = s.powerUps := rfl
@[simp] theorem State.writeBlk_pending (s : State) (k : Fin 4) (d : Word) :
    (s.writeBlk k d).pending = s.pending := rfl
@[simp] theorem State.writeBlk_responses (s : State) (k : Fin 4) (d : Word) :
    (s.writeBlk k d).responses = s.responses := rfl

/-! ### `State.writeH` -/

@[simp] theorem State.writeH_key (s : State) (k : Fin 8) (d : Word) :
    (s.writeH k d).key = s.key := rfl
@[simp] theorem State.writeH_rk (s : State) (k : Fin 8) (d : Word) :
    (s.writeH k d).rk = s.rk := rfl
@[simp] theorem State.writeH_iv (s : State) (k : Fin 8) (d : Word) :
    (s.writeH k d).iv = s.iv := rfl
@[simp] theorem State.writeH_blk (s : State) (k : Fin 8) (d : Word) :
    (s.writeH k d).blk = s.blk := rfl
@[simp] theorem State.writeH_h (s : State) (k : Fin 8) (d : Word) :
    (s.writeH k d).h = s.h.set k d := rfl
@[simp] theorem State.writeH_src (s : State) (k : Fin 8) (d : Word) :
    (s.writeH k d).src = s.src := rfl
@[simp] theorem State.writeH_dst (s : State) (k : Fin 8) (d : Word) :
    (s.writeH k d).dst = s.dst := rfl
@[simp] theorem State.writeH_len (s : State) (k : Fin 8) (d : Word) :
    (s.writeH k d).len = s.len := rfl
@[simp] theorem State.writeH_outlen (s : State) (k : Fin 8) (d : Word) :
    (s.writeH k d).outlen = s.outlen := rfl
@[simp] theorem State.writeH_strict (s : State) (k : Fin 8) (d : Word) :
    (s.writeH k d).strict = s.strict := rfl
@[simp] theorem State.writeH_rkv (s : State) (k : Fin 8) (d : Word) :
    (s.writeH k d).rkv = s.rkv := rfl
@[simp] theorem State.writeH_padbad (s : State) (k : Fin 8) (d : Word) :
    (s.writeH k d).padbad = s.padbad := rfl
@[simp] theorem State.writeH_err (s : State) (k : Fin 8) (d : Word) :
    (s.writeH k d).err = s.err := rfl
@[simp] theorem State.writeH_buf (s : State) (k : Fin 8) (d : Word) :
    (s.writeH k d).buf = s.buf := rfl
@[simp] theorem State.writeH_cfg (s : State) (k : Fin 8) (d : Word) :
    (s.writeH k d).cfg = s.cfg := rfl
@[simp] theorem State.writeH_powerUps (s : State) (k : Fin 8) (d : Word) :
    (s.writeH k d).powerUps = s.powerUps := rfl
@[simp] theorem State.writeH_pending (s : State) (k : Fin 8) (d : Word) :
    (s.writeH k d).pending = s.pending := rfl
@[simp] theorem State.writeH_responses (s : State) (k : Fin 8) (d : Word) :
    (s.writeH k d).responses = s.responses := rfl

/-! ### `State.writeSrc` -/

@[simp] theorem State.writeSrc_key (s : State) (d : Word) :
    (s.writeSrc d).key = s.key := rfl
@[simp] theorem State.writeSrc_rk (s : State) (d : Word) :
    (s.writeSrc d).rk = s.rk := rfl
@[simp] theorem State.writeSrc_iv (s : State) (d : Word) :
    (s.writeSrc d).iv = s.iv := rfl
@[simp] theorem State.writeSrc_blk (s : State) (d : Word) :
    (s.writeSrc d).blk = s.blk := rfl
@[simp] theorem State.writeSrc_h (s : State) (d : Word) :
    (s.writeSrc d).h = s.h := rfl
@[simp] theorem State.writeSrc_src (s : State) (d : Word) :
    (s.writeSrc d).src = d := rfl
@[simp] theorem State.writeSrc_dst (s : State) (d : Word) :
    (s.writeSrc d).dst = s.dst := rfl
@[simp] theorem State.writeSrc_len (s : State) (d : Word) :
    (s.writeSrc d).len = s.len := rfl
@[simp] theorem State.writeSrc_outlen (s : State) (d : Word) :
    (s.writeSrc d).outlen = s.outlen := rfl
@[simp] theorem State.writeSrc_strict (s : State) (d : Word) :
    (s.writeSrc d).strict = s.strict := rfl
@[simp] theorem State.writeSrc_rkv (s : State) (d : Word) :
    (s.writeSrc d).rkv = s.rkv := rfl
@[simp] theorem State.writeSrc_padbad (s : State) (d : Word) :
    (s.writeSrc d).padbad = s.padbad := rfl
@[simp] theorem State.writeSrc_err (s : State) (d : Word) :
    (s.writeSrc d).err = s.err := rfl
@[simp] theorem State.writeSrc_buf (s : State) (d : Word) :
    (s.writeSrc d).buf = s.buf := rfl
@[simp] theorem State.writeSrc_cfg (s : State) (d : Word) :
    (s.writeSrc d).cfg = s.cfg := rfl
@[simp] theorem State.writeSrc_powerUps (s : State) (d : Word) :
    (s.writeSrc d).powerUps = s.powerUps := rfl
@[simp] theorem State.writeSrc_pending (s : State) (d : Word) :
    (s.writeSrc d).pending = s.pending := rfl
@[simp] theorem State.writeSrc_responses (s : State) (d : Word) :
    (s.writeSrc d).responses = s.responses := rfl

/-! ### `State.writeDst` -/

@[simp] theorem State.writeDst_key (s : State) (d : Word) :
    (s.writeDst d).key = s.key := rfl
@[simp] theorem State.writeDst_rk (s : State) (d : Word) :
    (s.writeDst d).rk = s.rk := rfl
@[simp] theorem State.writeDst_iv (s : State) (d : Word) :
    (s.writeDst d).iv = s.iv := rfl
@[simp] theorem State.writeDst_blk (s : State) (d : Word) :
    (s.writeDst d).blk = s.blk := rfl
@[simp] theorem State.writeDst_h (s : State) (d : Word) :
    (s.writeDst d).h = s.h := rfl
@[simp] theorem State.writeDst_src (s : State) (d : Word) :
    (s.writeDst d).src = s.src := rfl
@[simp] theorem State.writeDst_dst (s : State) (d : Word) :
    (s.writeDst d).dst = d := rfl
@[simp] theorem State.writeDst_len (s : State) (d : Word) :
    (s.writeDst d).len = s.len := rfl
@[simp] theorem State.writeDst_outlen (s : State) (d : Word) :
    (s.writeDst d).outlen = s.outlen := rfl
@[simp] theorem State.writeDst_strict (s : State) (d : Word) :
    (s.writeDst d).strict = s.strict := rfl
@[simp] theorem State.writeDst_rkv (s : State) (d : Word) :
    (s.writeDst d).rkv = s.rkv := rfl
@[simp] theorem State.writeDst_padbad (s : State) (d : Word) :
    (s.writeDst d).padbad = s.padbad := rfl
@[simp] theorem State.writeDst_err (s : State) (d : Word) :
    (s.writeDst d).err = s.err := rfl
@[simp] theorem State.writeDst_buf (s : State) (d : Word) :
    (s.writeDst d).buf = s.buf := rfl
@[simp] theorem State.writeDst_cfg (s : State) (d : Word) :
    (s.writeDst d).cfg = s.cfg := rfl
@[simp] theorem State.writeDst_powerUps (s : State) (d : Word) :
    (s.writeDst d).powerUps = s.powerUps := rfl
@[simp] theorem State.writeDst_pending (s : State) (d : Word) :
    (s.writeDst d).pending = s.pending := rfl
@[simp] theorem State.writeDst_responses (s : State) (d : Word) :
    (s.writeDst d).responses = s.responses := rfl

/-! ### `State.writeLen` -/

@[simp] theorem State.writeLen_key (s : State) (d : Word) :
    (s.writeLen d).key = s.key := rfl
@[simp] theorem State.writeLen_rk (s : State) (d : Word) :
    (s.writeLen d).rk = s.rk := rfl
@[simp] theorem State.writeLen_iv (s : State) (d : Word) :
    (s.writeLen d).iv = s.iv := rfl
@[simp] theorem State.writeLen_blk (s : State) (d : Word) :
    (s.writeLen d).blk = s.blk := rfl
@[simp] theorem State.writeLen_h (s : State) (d : Word) :
    (s.writeLen d).h = s.h := rfl
@[simp] theorem State.writeLen_src (s : State) (d : Word) :
    (s.writeLen d).src = s.src := rfl
@[simp] theorem State.writeLen_dst (s : State) (d : Word) :
    (s.writeLen d).dst = s.dst := rfl
@[simp] theorem State.writeLen_len (s : State) (d : Word) :
    (s.writeLen d).len = d := rfl
@[simp] theorem State.writeLen_outlen (s : State) (d : Word) :
    (s.writeLen d).outlen = s.outlen := rfl
@[simp] theorem State.writeLen_strict (s : State) (d : Word) :
    (s.writeLen d).strict = s.strict := rfl
@[simp] theorem State.writeLen_rkv (s : State) (d : Word) :
    (s.writeLen d).rkv = s.rkv := rfl
@[simp] theorem State.writeLen_padbad (s : State) (d : Word) :
    (s.writeLen d).padbad = s.padbad := rfl
@[simp] theorem State.writeLen_err (s : State) (d : Word) :
    (s.writeLen d).err = s.err := rfl
@[simp] theorem State.writeLen_buf (s : State) (d : Word) :
    (s.writeLen d).buf = s.buf := rfl
@[simp] theorem State.writeLen_cfg (s : State) (d : Word) :
    (s.writeLen d).cfg = s.cfg := rfl
@[simp] theorem State.writeLen_powerUps (s : State) (d : Word) :
    (s.writeLen d).powerUps = s.powerUps := rfl
@[simp] theorem State.writeLen_pending (s : State) (d : Word) :
    (s.writeLen d).pending = s.pending := rfl
@[simp] theorem State.writeLen_responses (s : State) (d : Word) :
    (s.writeLen d).responses = s.responses := rfl

/-! ### `State.writeCtrl` -/

@[simp] theorem State.writeCtrl_key (s : State) (d : Word) :
    (s.writeCtrl d).key = s.key := rfl
@[simp] theorem State.writeCtrl_rk (s : State) (d : Word) :
    (s.writeCtrl d).rk = s.rk := rfl
@[simp] theorem State.writeCtrl_iv (s : State) (d : Word) :
    (s.writeCtrl d).iv = s.iv := rfl
@[simp] theorem State.writeCtrl_blk (s : State) (d : Word) :
    (s.writeCtrl d).blk = s.blk := rfl
@[simp] theorem State.writeCtrl_h (s : State) (d : Word) :
    (s.writeCtrl d).h = s.h := rfl
@[simp] theorem State.writeCtrl_src (s : State) (d : Word) :
    (s.writeCtrl d).src = s.src := rfl
@[simp] theorem State.writeCtrl_dst (s : State) (d : Word) :
    (s.writeCtrl d).dst = s.dst := rfl
@[simp] theorem State.writeCtrl_len (s : State) (d : Word) :
    (s.writeCtrl d).len = s.len := rfl
@[simp] theorem State.writeCtrl_outlen (s : State) (d : Word) :
    (s.writeCtrl d).outlen = s.outlen := rfl
@[simp] theorem State.writeCtrl_strict (s : State) (d : Word) :
    (s.writeCtrl d).strict = d.getLsbD 0 := rfl
@[simp] theorem State.writeCtrl_rkv (s : State) (d : Word) :
    (s.writeCtrl d).rkv = s.rkv := rfl
@[simp] theorem State.writeCtrl_padbad (s : State) (d : Word) :
    (s.writeCtrl d).padbad = s.padbad := rfl
@[simp] theorem State.writeCtrl_err (s : State) (d : Word) :
    (s.writeCtrl d).err = s.err := rfl
@[simp] theorem State.writeCtrl_buf (s : State) (d : Word) :
    (s.writeCtrl d).buf = s.buf := rfl
@[simp] theorem State.writeCtrl_cfg (s : State) (d : Word) :
    (s.writeCtrl d).cfg = s.cfg := rfl
@[simp] theorem State.writeCtrl_powerUps (s : State) (d : Word) :
    (s.writeCtrl d).powerUps = s.powerUps := rfl
@[simp] theorem State.writeCtrl_pending (s : State) (d : Word) :
    (s.writeCtrl d).pending = s.pending := rfl
@[simp] theorem State.writeCtrl_responses (s : State) (d : Word) :
    (s.writeCtrl d).responses = s.responses := rfl

/-! ### `State.respond` -/

@[simp] theorem State.respond_key (s : State) (r : Response) :
    (s.respond r).key = s.key := rfl
@[simp] theorem State.respond_rk (s : State) (r : Response) :
    (s.respond r).rk = s.rk := rfl
@[simp] theorem State.respond_iv (s : State) (r : Response) :
    (s.respond r).iv = s.iv := rfl
@[simp] theorem State.respond_blk (s : State) (r : Response) :
    (s.respond r).blk = s.blk := rfl
@[simp] theorem State.respond_h (s : State) (r : Response) :
    (s.respond r).h = s.h := rfl
@[simp] theorem State.respond_src (s : State) (r : Response) :
    (s.respond r).src = s.src := rfl
@[simp] theorem State.respond_dst (s : State) (r : Response) :
    (s.respond r).dst = s.dst := rfl
@[simp] theorem State.respond_len (s : State) (r : Response) :
    (s.respond r).len = s.len := rfl
@[simp] theorem State.respond_outlen (s : State) (r : Response) :
    (s.respond r).outlen = s.outlen := rfl
@[simp] theorem State.respond_strict (s : State) (r : Response) :
    (s.respond r).strict = s.strict := rfl
@[simp] theorem State.respond_rkv (s : State) (r : Response) :
    (s.respond r).rkv = s.rkv := rfl
@[simp] theorem State.respond_padbad (s : State) (r : Response) :
    (s.respond r).padbad = s.padbad := rfl
@[simp] theorem State.respond_err (s : State) (r : Response) :
    (s.respond r).err = s.err := rfl
@[simp] theorem State.respond_buf (s : State) (r : Response) :
    (s.respond r).buf = s.buf := rfl
@[simp] theorem State.respond_cfg (s : State) (r : Response) :
    (s.respond r).cfg = s.cfg := rfl
@[simp] theorem State.respond_powerUps (s : State) (r : Response) :
    (s.respond r).powerUps = s.powerUps := rfl
@[simp] theorem State.respond_pending (s : State) (r : Response) :
    (s.respond r).pending = s.pending := rfl
@[simp] theorem State.respond_responses (s : State) (r : Response) :
    (s.respond r).responses = s.responses ++ [r] := rfl

/-! ### `State.withPending` -/

@[simp] theorem State.withPending_key (s : State) (p : List HostStep) :
    (s.withPending p).key = s.key := rfl
@[simp] theorem State.withPending_rk (s : State) (p : List HostStep) :
    (s.withPending p).rk = s.rk := rfl
@[simp] theorem State.withPending_iv (s : State) (p : List HostStep) :
    (s.withPending p).iv = s.iv := rfl
@[simp] theorem State.withPending_blk (s : State) (p : List HostStep) :
    (s.withPending p).blk = s.blk := rfl
@[simp] theorem State.withPending_h (s : State) (p : List HostStep) :
    (s.withPending p).h = s.h := rfl
@[simp] theorem State.withPending_src (s : State) (p : List HostStep) :
    (s.withPending p).src = s.src := rfl
@[simp] theorem State.withPending_dst (s : State) (p : List HostStep) :
    (s.withPending p).dst = s.dst := rfl
@[simp] theorem State.withPending_len (s : State) (p : List HostStep) :
    (s.withPending p).len = s.len := rfl
@[simp] theorem State.withPending_outlen (s : State) (p : List HostStep) :
    (s.withPending p).outlen = s.outlen := rfl
@[simp] theorem State.withPending_strict (s : State) (p : List HostStep) :
    (s.withPending p).strict = s.strict := rfl
@[simp] theorem State.withPending_rkv (s : State) (p : List HostStep) :
    (s.withPending p).rkv = s.rkv := rfl
@[simp] theorem State.withPending_padbad (s : State) (p : List HostStep) :
    (s.withPending p).padbad = s.padbad := rfl
@[simp] theorem State.withPending_err (s : State) (p : List HostStep) :
    (s.withPending p).err = s.err := rfl
@[simp] theorem State.withPending_buf (s : State) (p : List HostStep) :
    (s.withPending p).buf = s.buf := rfl
@[simp] theorem State.withPending_cfg (s : State) (p : List HostStep) :
    (s.withPending p).cfg = s.cfg := rfl
@[simp] theorem State.withPending_powerUps (s : State) (p : List HostStep) :
    (s.withPending p).powerUps = s.powerUps := rfl
@[simp] theorem State.withPending_pending (s : State) (p : List HostStep) :
    (s.withPending p).pending = p := rfl
@[simp] theorem State.withPending_responses (s : State) (p : List HostStep) :
    (s.withPending p).responses = s.responses := rfl

/-! ### `State.resetRegisters` -/

@[simp] theorem State.resetRegisters_key (s : State) :
    (s.resetRegisters).key = .replicate 4 0 := rfl
@[simp] theorem State.resetRegisters_rk (s : State) :
    (s.resetRegisters).rk = .replicate 32 0 := rfl
@[simp] theorem State.resetRegisters_iv (s : State) :
    (s.resetRegisters).iv = .replicate 4 0 := rfl
@[simp] theorem State.resetRegisters_blk (s : State) :
    (s.resetRegisters).blk = .replicate 4 0 := rfl
@[simp] theorem State.resetRegisters_h (s : State) :
    (s.resetRegisters).h = .replicate 8 0 := rfl
@[simp] theorem State.resetRegisters_src (s : State) :
    (s.resetRegisters).src = 0 := rfl
@[simp] theorem State.resetRegisters_dst (s : State) :
    (s.resetRegisters).dst = 0 := rfl
@[simp] theorem State.resetRegisters_len (s : State) :
    (s.resetRegisters).len = 0 := rfl
@[simp] theorem State.resetRegisters_outlen (s : State) :
    (s.resetRegisters).outlen = 0 := rfl
@[simp] theorem State.resetRegisters_strict (s : State) :
    (s.resetRegisters).strict = false := rfl
@[simp] theorem State.resetRegisters_rkv (s : State) :
    (s.resetRegisters).rkv = false := rfl
@[simp] theorem State.resetRegisters_padbad (s : State) :
    (s.resetRegisters).padbad = false := rfl
@[simp] theorem State.resetRegisters_err (s : State) :
    (s.resetRegisters).err = .ok := rfl
@[simp] theorem State.resetRegisters_buf (s : State) :
    (s.resetRegisters).buf = s.buf := rfl
@[simp] theorem State.resetRegisters_cfg (s : State) :
    (s.resetRegisters).cfg = s.cfg := rfl
@[simp] theorem State.resetRegisters_powerUps (s : State) :
    (s.resetRegisters).powerUps = s.powerUps := rfl
@[simp] theorem State.resetRegisters_pending (s : State) :
    (s.resetRegisters).pending = s.pending := rfl
@[simp] theorem State.resetRegisters_responses (s : State) :
    (s.resetRegisters).responses = s.responses := rfl

/-! ### `State.powerUp` -/

@[simp] theorem State.powerUp_key (s : State) :
    (s.powerUp).key = .replicate 4 0 := rfl
@[simp] theorem State.powerUp_rk (s : State) :
    (s.powerUp).rk = .replicate 32 0 := rfl
@[simp] theorem State.powerUp_iv (s : State) :
    (s.powerUp).iv = .replicate 4 0 := rfl
@[simp] theorem State.powerUp_blk (s : State) :
    (s.powerUp).blk = .replicate 4 0 := rfl
@[simp] theorem State.powerUp_h (s : State) :
    (s.powerUp).h = .replicate 8 0 := rfl
@[simp] theorem State.powerUp_src (s : State) :
    (s.powerUp).src = 0 := rfl
@[simp] theorem State.powerUp_dst (s : State) :
    (s.powerUp).dst = 0 := rfl
@[simp] theorem State.powerUp_len (s : State) :
    (s.powerUp).len = 0 := rfl
@[simp] theorem State.powerUp_outlen (s : State) :
    (s.powerUp).outlen = 0 := rfl
@[simp] theorem State.powerUp_strict (s : State) :
    (s.powerUp).strict = false := rfl
@[simp] theorem State.powerUp_rkv (s : State) :
    (s.powerUp).rkv = false := rfl
@[simp] theorem State.powerUp_padbad (s : State) :
    (s.powerUp).padbad = false := rfl
@[simp] theorem State.powerUp_err (s : State) :
    (s.powerUp).err = .ok := rfl
@[simp] theorem State.powerUp_buf (s : State) :
    (s.powerUp).buf = [] := rfl
@[simp] theorem State.powerUp_cfg (s : State) :
    (s.powerUp).cfg = s.cfg := rfl
@[simp] theorem State.powerUp_powerUps (s : State) :
    (s.powerUp).powerUps = s.powerUps + 1 := rfl
@[simp] theorem State.powerUp_pending (s : State) :
    (s.powerUp).pending = s.pending := rfl
@[simp] theorem State.powerUp_responses (s : State) :
    (s.powerUp).responses = s.responses := rfl

/-! ### The derived readings -/

@[simp] theorem State.cmdError_readByte (s : State) (c : ErrCode) (x : Nat) :
    (s.cmdError c).readByte x = s.readByte x := rfl
@[simp] theorem State.cmdDone_readByte (s : State) (n : Nat) (p : Bool) (x : Nat) :
    (s.cmdDone n p).readByte x = s.readByte x := rfl
@[simp] theorem State.setSchedule_readByte (s : State) (v : Vector Word 32) (x : Nat) :
    (s.setSchedule v).readByte x = s.readByte x := rfl
@[simp] theorem State.setBlk_readByte (s : State) (v : Vector Word 4) (x : Nat) :
    (s.setBlk v).readByte x = s.readByte x := rfl
@[simp] theorem State.setH_readByte (s : State) (v : Vector Word 8) (x : Nat) :
    (s.setH v).readByte x = s.readByte x := rfl
@[simp] theorem State.writeKey_readByte (s : State) (k : Fin 4) (d : Word) (x : Nat) :
    (s.writeKey k d).readByte x = s.readByte x := rfl
@[simp] theorem State.writeIv_readByte (s : State) (k : Fin 4) (d : Word) (x : Nat) :
    (s.writeIv k d).readByte x = s.readByte x := rfl
@[simp] theorem State.writeBlk_readByte (s : State) (k : Fin 4) (d : Word) (x : Nat) :
    (s.writeBlk k d).readByte x = s.readByte x := rfl
@[simp] theorem State.writeH_readByte (s : State) (k : Fin 8) (d : Word) (x : Nat) :
    (s.writeH k d).readByte x = s.readByte x := rfl
@[simp] theorem State.writeSrc_readByte (s : State) (d : Word) (x : Nat) :
    (s.writeSrc d).readByte x = s.readByte x := rfl
@[simp] theorem State.writeDst_readByte (s : State) (d : Word) (x : Nat) :
    (s.writeDst d).readByte x = s.readByte x := rfl
@[simp] theorem State.writeLen_readByte (s : State) (d : Word) (x : Nat) :
    (s.writeLen d).readByte x = s.readByte x := rfl
@[simp] theorem State.writeCtrl_readByte (s : State) (d : Word) (x : Nat) :
    (s.writeCtrl d).readByte x = s.readByte x := rfl
@[simp] theorem State.respond_readByte (s : State) (r : Response) (x : Nat) :
    (s.respond r).readByte x = s.readByte x := rfl
@[simp] theorem State.withPending_readByte (s : State) (p : List HostStep) (x : Nat) :
    (s.withPending p).readByte x = s.readByte x := rfl
@[simp] theorem State.resetRegisters_readByte (s : State) (x : Nat) :
    (s.resetRegisters).readByte x = s.readByte x := rfl

end Sys2Proof.Machine
end

