-- ==== Sys2Proof/Laws/Memory.lean ====
section
/-! SUPPORT. The laws of the buffer memory: what a store changes, that every store keeps the canonical
form, and the read primitives byte by byte. -/

namespace Sys2Proof.Machine

/-! ### Cells -/

theorem Memory.find_setByte (m : Memory) (a b : Nat) (v : Byte) :
    (m.setByte a v).find b = if b = a then some v else m.find b := by
  induction m with
  | nil => simp [Memory.setByte, Memory.find]
  | cons c m ih =>
    obtain ⟨x, w⟩ := c
    simp only [Memory.setByte]
    split_ifs with h1 h2 h3 h4
    all_goals simp_all [Memory.find]

theorem Memory.find_setBytes (m : Memory) (a b : Nat) (v : Bytes) :
    (m.setBytes a v).find b = if a ≤ b ∧ b < a + v.length then v[b - a]? else m.find b := by
  induction v generalizing m a with
  | nil => simp [Memory.setBytes]
  | cons x v ih =>
    rw [Memory.setBytes, ih, Memory.find_setByte]
    by_cases hb : b = a
    · subst hb; simp
    · by_cases h : a + 1 ≤ b ∧ b < a + 1 + v.length
      · have h2 : a ≤ b ∧ b < a + (x :: v).length := by simp; omega
        have h3 : b - a = (b - (a + 1)) + 1 := by omega
        rw [if_pos h, if_pos h2, h3, List.getElem?_cons_succ]
      · have h2 : ¬ (a ≤ b ∧ b < a + (x :: v).length) := by simp; omega
        rw [if_neg h, if_neg h2, if_neg hb]

theorem Memory.mem_setByte {m : Memory} {a : Nat} {v : Byte} {c : Host.Cell}
    (h : c ∈ m.setByte a v) : c = (a, v) ∨ c ∈ m := by
  induction m with
  | nil => simpa [Memory.setByte] using h
  | cons d m ih =>
    obtain ⟨b, w⟩ := d
    simp only [Memory.setByte] at h
    split_ifs at h with h1 h2
    · simpa using h
    · rcases List.mem_cons.1 h with h | h
      · exact .inl h
      · exact .inr (List.mem_cons_of_mem _ h)
    · rcases List.mem_cons.1 h with h | h
      · exact .inr (h ▸ List.mem_cons_self)
      · exact (ih h).imp_right (List.mem_cons_of_mem _)

/-- A store lists no address but those stored to. -/
theorem Memory.mem_setBytes {m : Memory} {a : Nat} {v : Bytes} {c : Host.Cell}
    (h : c ∈ m.setBytes a v) : (a ≤ c.1 ∧ c.1 < a + v.length) ∨ c ∈ m := by
  induction v generalizing m a with
  | nil => exact .inr h
  | cons x v ih =>
    rcases ih h with h | h
    · left; simp; omega
    · rcases Memory.mem_setByte h with h | h
      · left; simp [h]
      · exact .inr h

theorem Memory.setByte_wf {m : Memory} (a : Nat) (v : Byte) (h : m.wf) : (m.setByte a v).wf := by
  induction m with
  | nil => simp [Memory.setByte, Memory.wf]
  | cons d m ih =>
    obtain ⟨b, w⟩ := d
    simp only [Memory.wf, List.map_cons, List.pairwise_cons] at h
    simp only [Memory.setByte]
    split_ifs with h1 h2
    · simp only [Memory.wf, List.map_cons, List.pairwise_cons]
      refine ⟨fun x hx => ?_, h.1, h.2⟩
      rcases List.mem_cons.1 hx with rfl | hx
      · exact h1
      · exact lt_trans h1 (h.1 x hx)
    · subst h2
      exact List.pairwise_cons.2 ⟨h.1, h.2⟩
    · refine List.pairwise_cons.2 ⟨fun x hx => ?_, ih h.2⟩
      obtain ⟨c, hc, rfl⟩ := List.mem_map.1 hx
      rcases Memory.mem_setByte hc with rfl | hc
      · show b < a; omega
      · exact h.1 _ (List.mem_map_of_mem hc)

/-- Every store keeps the canonical form. -/
theorem Memory.setBytes_wf {m : Memory} (a : Nat) (v : Bytes) (h : m.wf) : (m.setBytes a v).wf := by
  induction v generalizing m a with
  | nil => exact h
  | cons x v ih => exact ih _ (Memory.setByte_wf a x h)

/-- Reset's memory has the canonical form. -/
theorem reset_buf_wf : State.reset.buf.wf := by decide

/-! ### `BUF` -/

/-- What a `MemWrite` leaves at every address: the byte stored, or the byte that was there. -/
theorem State.readByte_memWrite (s : State) (a b : Nat) (v : Bytes) :
    (s.memWrite a v).readByte b =
      if h : a ≤ b ∧ b < a + v.length then v[b - a]'(by omega) else s.readByte b := by
  simp only [State.readByte, State.memWrite_buf, State.memWrite_powerUps, Memory.find_setBytes]
  by_cases h : a ≤ b ∧ b < a + v.length
  · rw [if_pos h, dif_pos h, List.getElem?_eq_getElem (by omega : b - a < v.length)]
  · rw [if_neg h, dif_neg h]

theorem State.readByte_memWrite_outside (s : State) {a b : Nat} {v : Bytes}
    (h : b < a ∨ a + v.length ≤ b) : (s.memWrite a v).readByte b = s.readByte b := by
  rw [State.readByte_memWrite, dif_neg (by omega)]

@[simp] theorem State.memRead_length (s : State) (a n : Nat) : (s.memRead a n).length = n := by
  induction n generalizing a with
  | zero => rfl
  | succ n ih => simp [State.memRead, ih]

theorem State.memRead_getElem (s : State) (a n i : Nat) (h : i < (s.memRead a n).length) :
    (s.memRead a n)[i] = s.readByte (a + i) := by
  induction n generalizing a i with
  | zero => simp [State.memRead] at h
  | succ n ih =>
    cases i with
    | zero => rfl
    | succ i =>
      simp only [State.memRead, List.getElem_cons_succ]
      rw [ih, Nat.add_right_comm, Nat.add_assoc]

/-- `MemRead` depends on the bytes it reads alone. -/
theorem State.memRead_congr {s t : State} {a b n : Nat}
    (h : ∀ i, i < n → s.readByte (a + i) = t.readByte (b + i)) : s.memRead a n = t.memRead b n := by
  refine List.ext_getElem (by simp) fun i h1 h2 => ?_
  rw [State.memRead_getElem, State.memRead_getElem]
  exact h i (by simpa using h1)

/-- Reading what was just stored. -/
theorem State.memRead_memWrite (s : State) (a : Nat) (v : Bytes) :
    (s.memWrite a v).memRead a v.length = v := by
  refine List.ext_getElem (by simp) fun i h1 h2 => ?_
  rw [State.memRead_getElem, State.readByte_memWrite, dif_pos (by omega)]
  simp

/-- A read of `m + n` bytes is a read of `m` and then of the next `n`. -/
theorem State.memRead_add (s : State) (a m n : Nat) :
    s.memRead a (m + n) = s.memRead a m ++ s.memRead (a + m) n := by
  induction m generalizing a with
  | zero => simp [State.memRead]
  | succ m ih =>
    rw [Nat.add_right_comm, State.memRead, ih, State.memRead, List.cons_append,
      Nat.add_right_comm, Nat.add_assoc]

/-- Ending a command moves no byte. -/
@[simp] theorem State.memRead_cmdDone (s : State) (o : Nat) (p : Bool) (a n : Nat) :
    (s.cmdDone o p).memRead a n = s.memRead a n := State.memRead_congr fun _ _ => rfl

@[simp] theorem State.memRead_cmdError (s : State) (c : ErrCode) (a n : Nat) :
    (s.cmdError c).memRead a n = s.memRead a n := State.memRead_congr fun _ _ => rfl

@[simp] theorem State.memRead_setH (s : State) (v : Vector Word 8) (a n : Nat) :
    (s.setH v).memRead a n = s.memRead a n := State.memRead_congr fun _ _ => rfl

@[simp] theorem State.memRead_withPending (s : State) (p : List HostStep) (a n : Nat) :
    (s.withPending p).memRead a n = s.memRead a n := State.memRead_congr fun _ _ => rfl

end Sys2Proof.Machine
end

