-- ==== Sys2Proof/Laws/Operations.lean ====
section
/-! SUPPORT. For each shared operation of the meanings, what it can do, said once: admission, the
command shapes, the lengths of what the pure functions return. -/

namespace Sys2Proof.Machine

/-! ### Ending a command -/

theorem State.failedWith_eq (s : State) (c : ErrCode) : s.FailedWith c = s.cmdError c := by
  cases c <;> rfl

/-! ### Admission -/

theorem firstError_cons_true (e : ErrCode) (l : List (Bool × ErrCode)) :
    firstError ((true, e) :: l) = some e := rfl

theorem firstError_cons_false (e : ErrCode) (l : List (Bool × ErrCode)) :
    firstError ((false, e) :: l) = firstError l := rfl

theorem State.fits_iff (s : State) (a n : Nat) : s.fits a n = true ↔ a + n ≤ s.cfg.bufBytes := by
  simp [State.fits]

/-- The boolean overlap test is R67's: a common address, and not in place. -/
theorem partialOverlap_iff {a n b m : Nat} (hm : 0 < m) :
    partialOverlap a n b m = true ↔ b ≠ a ∧ RangesMeet a n b m := by
  simp only [partialOverlap, Bool.not_eq_true', Bool.or_eq_false_iff, decide_eq_false_iff_not, RangesMeet]
  constructor
  · rintro ⟨⟨⟨h1, h2⟩, h3⟩, h4⟩
    exact ⟨h2, max a b, by omega, by omega, by omega, by omega⟩
  · rintro ⟨h, x, h1, h2, h3, h4⟩
    exact ⟨⟨⟨by omega, h⟩, by omega⟩, by omega⟩

theorem State.layoutAllowed_iff (s : State) {inlen outcap : Nat} (h : 0 < outcap) :
    s.LayoutAllowed inlen outcap ↔ partialOverlap s.srcAddr inlen s.dstAddr outcap = false := by
  rw [← Bool.not_eq_true, partialOverlap_iff h, State.LayoutAllowed]
  tauto

theorem State.inRange_iff (s : State) (inlen outcap : Nat) :
    s.InRange inlen outcap ↔ (s.fits s.srcAddr inlen && s.fits s.dstAddr outcap) = true := by
  simp [State.InRange, State.fits]

/-- The range and overlap checks, in their order. -/
theorem State.rangeConditions_cases (s : State) {inlen outcap : Nat} (h : 0 < outcap) :
    (¬ s.InRange inlen outcap ∧ firstError (s.rangeConditions inlen outcap) = some .resource) ∨
    (s.InRange inlen outcap ∧ ¬ s.LayoutAllowed inlen outcap ∧
      firstError (s.rangeConditions inlen outcap) = some .overlap) ∨
    (s.InRange inlen outcap ∧ s.LayoutAllowed inlen outcap ∧
      firstError (s.rangeConditions inlen outcap) = none) := by
  rw [State.inRange_iff, State.layoutAllowed_iff s h]
  unfold State.rangeConditions
  cases (s.fits s.srcAddr inlen && s.fits s.dstAddr outcap) <;>
    cases partialOverlap s.srcAddr inlen s.dstAddr outcap <;> simp [firstError]

theorem paddedLength_pos (n : Nat) : 0 < paddedLength n := by unfold paddedLength; omega

theorem paddedLength_mod (n : Nat) : paddedLength n % 16 = 0 := by unfold paddedLength; omega

theorem State.encryptError_noKey {s : State} (h : s.rkv = false) : s.encryptError = some .noKey := by
  simp [State.encryptError, h, firstError]

theorem State.encryptError_key {s : State} (h : s.rkv = true) :
    s.encryptError = firstError (s.rangeConditions s.lenBytes (paddedLength s.lenBytes)) := by
  simp [State.encryptError, h, firstError]

theorem State.decryptError_noKey {s : State} (h : s.rkv = false) : s.decryptError = some .noKey := by
  simp [State.decryptError, h, firstError]

theorem State.decryptError_badLength {s : State} (h : s.rkv = true)
    (hl : s.lenBytes = 0 ∨ s.lenBytes % 16 ≠ 0) : s.decryptError = some .length := by
  simp only [State.decryptError, h, Bool.not_true, firstError_cons_false, decide_eq_true hl, firstError_cons_true]

theorem State.decryptError_goodLength {s : State} (h : s.rkv = true)
    (hl : ¬ (s.lenBytes = 0 ∨ s.lenBytes % 16 ≠ 0)) :
    s.decryptError = firstError (s.rangeConditions s.lenBytes s.lenBytes) := by
  simp only [State.decryptError, h, Bool.not_true, firstError_cons_false, decide_eq_false hl]

theorem State.hblockError_eq_none {s : State} :
    s.hblockError = none ↔ s.srcAddr + 64 ≤ s.cfg.bufBytes := by
  unfold State.hblockError firstError firstError State.fits hashBlockBytes
  by_cases h : s.srcAddr + 64 ≤ s.cfg.bufBytes <;> simp [h]

theorem State.hblockError_eq_some {s : State} (h : s.cfg.bufBytes < s.srcAddr + 64) :
    s.hblockError = some .resource := by
  unfold State.hblockError firstError firstError State.fits hashBlockBytes
  have h' : ¬ s.srcAddr + 64 ≤ s.cfg.bufBytes := by omega
  simp [h']

/-- An admitted encryption. -/
theorem State.encryptError_eq_none {s : State} (hk : s.rkv = true)
    (hr : s.InRange s.lenBytes (paddedLength s.lenBytes))
    (hl : s.LayoutAllowed s.lenBytes (paddedLength s.lenBytes)) : s.encryptError = none := by
  rw [State.encryptError_key hk]
  rcases s.rangeConditions_cases (paddedLength_pos s.lenBytes) (inlen := s.lenBytes) with h | h | h
  · exact absurd hr h.1
  · exact absurd hl h.2.1
  · exact h.2.2

/-- An admitted decryption. -/
theorem State.decryptError_eq_none {s : State} (hk : s.rkv = true) (h0 : s.lenBytes ≠ 0)
    (h16 : s.lenBytes % 16 = 0) (hr : s.InRange s.lenBytes s.lenBytes)
    (hl : s.LayoutAllowed s.lenBytes s.lenBytes) : s.decryptError = none := by
  rw [State.decryptError_goodLength hk (by omega)]
  rcases s.rangeConditions_cases (inlen := s.lenBytes) (Nat.pos_of_ne_zero h0) with h | h | h
  · exact absurd hr h.1
  · exact absurd hl h.2.1
  · exact h.2.2

/-- An admitted HASH. -/
theorem State.hashError_eq_none {s : State} (hr : s.InRange s.lenBytes 32)
    (hl : s.LayoutAllowed s.lenBytes 32) : s.hashError = none := by
  show firstError (s.rangeConditions s.lenBytes 32) = none
  rcases s.rangeConditions_cases (inlen := s.lenBytes) (outcap := 32) (by omega) with h | h | h
  · exact absurd hr h.1
  · exact absurd hl h.2.1
  · exact h.2.2

/-! ### Admission, as the spec's checks say it -/

theorem State.firstFailure_encrypt (s : State) {i : Instr} (hi : i = .cbcenc ∨ i = .ecbenc) (c : ErrCode) :
    s.FirstFailure i c ↔ s.encryptError = some c := by
  have hk : s.KeyOk i ↔ s.rkv = true := by rcases hi with rfl | rfl <;> simp [State.KeyOk, cipherCommands]
  have hl : s.LengthOk i := by rcases hi with rfl | rfl <;> simp [State.LengthOk, decryptCommands]
  have hr : s.RangeOk i ↔ s.InRange s.lenBytes (paddedLength s.lenBytes) := by
    rcases hi with rfl | rfl <;> simp [State.RangeOk, rangeCommands, State.inlen, State.outcap, paddedLength]
  have ho : s.LayoutOk i ↔ s.LayoutAllowed s.lenBytes (paddedLength s.lenBytes) := by
    rcases hi with rfl | rfl <;> simp [State.LayoutOk, rangeCommands, State.inlen, State.outcap, paddedLength]
  cases hkv : s.rkv with
  | false => rw [State.encryptError_noKey hkv]; cases c <;> simp [State.FirstFailure, hk, hkv]
  | true =>
    rw [State.encryptError_key hkv]
    rcases s.rangeConditions_cases (paddedLength_pos s.lenBytes) (inlen := s.lenBytes) with h | h | h <;>
      cases c <;> simp [State.FirstFailure, hk, hkv, hl, hr, ho, h]

theorem State.firstFailure_decrypt (s : State) {i : Instr} (hi : i = .cbcdec ∨ i = .ecbdec) (c : ErrCode) :
    s.FirstFailure i c ↔ s.decryptError = some c := by
  have hk : s.KeyOk i ↔ s.rkv = true := by rcases hi with rfl | rfl <;> simp [State.KeyOk, cipherCommands]
  have hl : s.LengthOk i ↔ ¬ (s.lenBytes = 0 ∨ s.lenBytes % 16 ≠ 0) := by
    rcases hi with rfl | rfl <;> simp [State.LengthOk, decryptCommands]
  have hr : s.RangeOk i ↔ s.InRange s.lenBytes s.lenBytes := by
    rcases hi with rfl | rfl <;> simp [State.RangeOk, rangeCommands, State.inlen, State.outcap]
  have ho : s.LayoutOk i ↔ s.LayoutAllowed s.lenBytes s.lenBytes := by
    rcases hi with rfl | rfl <;> simp [State.LayoutOk, rangeCommands, State.inlen, State.outcap]
  cases hkv : s.rkv with
  | false => rw [State.decryptError_noKey hkv]; cases c <;> simp [State.FirstFailure, hk, hkv]
  | true =>
    by_cases hb : s.lenBytes = 0 ∨ s.lenBytes % 16 ≠ 0
    · rw [State.decryptError_badLength hkv hb]
      cases c <;> simp only [State.FirstFailure, hk, hkv, hl, hb] <;> simp
    · rw [State.decryptError_goodLength hkv hb]
      rcases s.rangeConditions_cases (inlen := s.lenBytes) (outcap := s.lenBytes) (by omega) with h | h | h <;>
        cases c <;> simp only [State.FirstFailure, hk, hkv, hl, hb, hr, ho, h] <;> simp

theorem State.firstFailure_hash (s : State) (c : ErrCode) :
    s.FirstFailure .hash c ↔ s.hashError = some c := by
  have hk : s.KeyOk .hash := by simp [State.KeyOk, cipherCommands]
  have hl : s.LengthOk .hash := by simp [State.LengthOk, decryptCommands]
  have hr : s.RangeOk .hash ↔ s.InRange s.lenBytes 32 := by
    simp [State.RangeOk, rangeCommands, State.inlen, State.outcap]
  have ho : s.LayoutOk .hash ↔ s.LayoutAllowed s.lenBytes 32 := by
    simp [State.LayoutOk, rangeCommands, State.inlen, State.outcap]
  show _ ↔ firstError (s.rangeConditions s.lenBytes 32) = some c
  rcases s.rangeConditions_cases (inlen := s.lenBytes) (outcap := 32) (by omega) with h | h | h <;>
    cases c <;> simp [State.FirstFailure, hk, hl, hr, ho, h]

/-- Admission fails exactly at some first check. -/
theorem State.admits_iff (s : State) (i : Instr) : s.Admits i ↔ ∀ c, ¬ s.FirstFailure i c := by
  constructor
  · rintro ⟨h1, h2, h3, h4⟩ c
    cases c <;> simp [State.FirstFailure, h1, h2, h3, h4]
  · intro h
    have h1 : s.KeyOk i := not_not.1 (h .noKey)
    have h2 : s.LengthOk i := by by_contra h'; exact h .length ⟨h1, h'⟩
    have h3 : s.RangeOk i := by by_contra h'; exact h .resource ⟨h1, h2, h'⟩
    exact ⟨h1, h2, h3, by by_contra h'; exact h .overlap ⟨h1, h2, h3, h'⟩⟩

theorem State.admits_encrypt (s : State) {i : Instr} (hi : i = .cbcenc ∨ i = .ecbenc) :
    s.Admits i ↔ s.encryptError = none := by
  simp only [State.admits_iff, s.firstFailure_encrypt hi, Option.eq_none_iff_forall_ne_some, ne_eq]

theorem State.admits_decrypt (s : State) {i : Instr} (hi : i = .cbcdec ∨ i = .ecbdec) :
    s.Admits i ↔ s.decryptError = none := by
  simp only [State.admits_iff, s.firstFailure_decrypt hi, Option.eq_none_iff_forall_ne_some, ne_eq]

theorem State.admits_hash (s : State) : s.Admits .hash ↔ s.hashError = none := by
  simp only [State.admits_iff, s.firstFailure_hash, Option.eq_none_iff_forall_ne_some, ne_eq]

/-- A check list names none but the codes it lists. -/
theorem firstError_mem {l : List (Bool × ErrCode)} {e : ErrCode} (h : firstError l = some e) :
    e ∈ l.map Prod.snd := by
  induction l with
  | nil => simp [firstError] at h
  | cons x l ih =>
    obtain ⟨c, x⟩ := x
    cases c
    · exact List.mem_cons_of_mem _ (ih h)
    · rw [firstError_cons_true] at h
      obtain rfl : x = e := by simpa using h
      simp

/-! ### The command shapes: everything each can leave -/

theorem blockCommand_cases (f : Vector Word 4 → Vector Word 32 → Vector Word 4) (s : State) :
    (s.rkv = true ∧ blockCommand f s = (s.setBlk (f s.blk s.rk)).cmdDone 0 false) ∨
    (s.rkv = false ∧ blockCommand f s = s.cmdError .noKey) := by
  unfold blockCommand
  cases s.rkv <;> simp

theorem encryptCommand_cases (f : Bytes → Bytes) (s : State) :
    (∃ e, s.encryptError = some e ∧ encryptCommand f s = s.cmdError e) ∨
    (s.encryptError = none ∧ encryptCommand f s =
      (s.memWrite s.dstAddr (f (s.memRead s.srcAddr s.lenBytes))).cmdDone (paddedLength s.lenBytes) false) := by
  unfold encryptCommand
  cases s.encryptError <;> simp

theorem deliverDecrypted_cases (d : Bytes) (s : State) :
    ((unpad d).2 = true ∧ s.strict = true ∧ deliverDecrypted d s = s.cmdError .padding) ∨
    (((unpad d).2 = false ∨ s.strict = false) ∧
      deliverDecrypted d s = (s.memWrite s.dstAddr d).cmdDone (unpad d).1.length (unpad d).2) := by
  unfold deliverDecrypted
  cases (unpad d).2 <;> cases s.strict <;> simp

theorem decryptCommand_cases (f : Bytes → Bytes) (s : State) :
    (∃ e, s.decryptError = some e ∧ decryptCommand f s = s.cmdError e) ∨
    (s.decryptError = none ∧
      decryptCommand f s = deliverDecrypted (f (s.memRead s.srcAddr s.lenBytes)) s) := by
  unfold decryptCommand
  cases s.decryptError <;> simp

/-! ### Lengths -/

@[simp] theorem unpack32_length (w : Word) : (unpack32 w).length = 4 := rfl

theorem unpackWords_length (ws : List Word) : (unpackWords ws).length = 4 * ws.length := by
  induction ws with
  | nil => rfl
  | cons w ws ih =>
    have : unpackWords (w :: ws) = unpack32 w ++ unpackWords ws := rfl
    rw [this, List.length_append, ih, unpack32_length, List.length_cons]; omega

@[simp] theorem bytes16_length (w : Vector Word 4) : (bytes16 w).length = 16 := by
  simp [bytes16, unpackWords_length]

@[simp] theorem digestOf_length (v : Vector Word 8) : (digestOf v).length = 32 := by
  simp [digestOf, unpackWords_length]

@[simp] theorem encryptBlock_length (b : Bytes) (rk : Vector Word 32) : (encryptBlock b rk).length = 16 :=
  bytes16_length _

@[simp] theorem decryptBlock_length (b : Bytes) (rk : Vector Word 32) : (decryptBlock b rk).length = 16 :=
  bytes16_length _

theorem xor16_length (a b : Bytes) : (xor16 a b).length = min a.length b.length := by
  simp [xor16]

theorem pad_length (m : Bytes) : (pad m).length = paddedLength m.length := by
  simp [pad, paddedLength]; omega

theorem pad_blocks (m : Bytes) : 16 * ((pad m).length / 16) = (pad m).length := by
  rw [pad_length]
  have := paddedLength_mod m.length
  omega

theorem cbcEncryptBlocks_length (rk : Vector Word 32) (n : Nat) (chain p : Bytes) :
    (cbcEncryptBlocks rk n chain p).length = 16 * n := by
  induction n generalizing chain p with
  | zero => rfl
  | succ n ih => simp [cbcEncryptBlocks, ih]; omega

theorem cbcEncrypt_length (m : Bytes) (rk : Vector Word 32) (iv : Bytes) :
    (cbcEncrypt m rk iv).length = paddedLength m.length := by
  rw [cbcEncrypt, cbcEncryptBlocks_length, pad_blocks, pad_length]

theorem mapBlocks_length (f : Bytes → Bytes) (hf : ∀ b, (f b).length = 16) (n : Nat) (p : Bytes) :
    (mapBlocks f n p).length = 16 * n := by
  induction n generalizing p with
  | zero => rfl
  | succ n ih => simp [mapBlocks, ih, hf]; omega

theorem ecbEncrypt_length (m : Bytes) (rk : Vector Word 32) :
    (ecbEncrypt m rk).length = paddedLength m.length := by
  rw [ecbEncrypt, mapBlocks_length _ (fun b => encryptBlock_length b rk), pad_blocks, pad_length]

theorem ecbDecryptRaw_length {c : Bytes} (rk : Vector Word 32) (h : c.length % 16 = 0) :
    (ecbDecryptRaw c rk).length = c.length := by
  rw [ecbDecryptRaw, mapBlocks_length _ (fun b => decryptBlock_length b rk)]; omega

theorem cbcDecryptBlocks_length (rk : Vector Word 32) (n : Nat) (chain c : Bytes)
    (hc : chain.length = 16) (h : 16 * n ≤ c.length) : (cbcDecryptBlocks rk n chain c).length = 16 * n := by
  induction n generalizing chain c with
  | zero => rfl
  | succ n ih =>
    rw [cbcDecryptBlocks, List.length_append, xor16_length, decryptBlock_length, hc,
      ih _ _ (by simp; omega) (by simp; omega)]
    omega

theorem cbcDecryptRaw_length {c iv : Bytes} (rk : Vector Word 32) (hiv : iv.length = 16)
    (h : c.length % 16 = 0) : (cbcDecryptRaw c rk iv).length = c.length := by
  rw [cbcDecryptRaw, cbcDecryptBlocks_length rk _ _ _ hiv (by omega)]; omega

theorem unpad_length_le (d : Bytes) : (unpad d).1.length ≤ d.length := by
  unfold unpad
  split <;> simp

theorem hpad_length (m : Bytes) : (hpad m).length = m.length + 1 + hashZeros m.length + 8 := by
  simp [hpad, be64]; omega

/-! ### The bus -/

/-- The register map is onto: each location stands at its own offset. -/
theorem Reg.atOffset_offset (r : Reg) : Reg.atOffset r.offset = .ok r := by
  cases r with
  | key k => revert k; decide
  | iv k => revert k; decide
  | blk k => revert k; decide
  | h k => revert k; decide
  | rk i => revert i; decide
  | _ => rfl

end Sys2Proof.Machine
end

