-- ==== Sys2Proof/Laws/PerInstr.lean ====
section
/-! SUPPORT. Statements made instruction by instruction: the fields of each command word (R90, R91). -/

namespace Sys2Proof.Laws

/-- The command word of `i` has field `zero` 0 and field `op` the opcode of the map (R90, R91), and its
number is below 2 to the 8. -/
def EncodedFields.Statement (i : Instr) : Prop :=
  zeroField (encode i) = 0 ∧ opField (encode i) = opcode i ∧ (encode i).toNat = (opcode i).toNat

theorem EncodedFields.keyexp : EncodedFields.Statement .keyexp := ⟨by decide, by decide, by decide⟩
theorem EncodedFields.encblk : EncodedFields.Statement .encblk := ⟨by decide, by decide, by decide⟩
theorem EncodedFields.decblk : EncodedFields.Statement .decblk := ⟨by decide, by decide, by decide⟩
theorem EncodedFields.cbcenc : EncodedFields.Statement .cbcenc := ⟨by decide, by decide, by decide⟩
theorem EncodedFields.cbcdec : EncodedFields.Statement .cbcdec := ⟨by decide, by decide, by decide⟩
theorem EncodedFields.ecbenc : EncodedFields.Statement .ecbenc := ⟨by decide, by decide, by decide⟩
theorem EncodedFields.ecbdec : EncodedFields.Statement .ecbdec := ⟨by decide, by decide, by decide⟩
theorem EncodedFields.hinit : EncodedFields.Statement .hinit := ⟨by decide, by decide, by decide⟩
theorem EncodedFields.hblock : EncodedFields.Statement .hblock := ⟨by decide, by decide, by decide⟩
theorem EncodedFields.hash : EncodedFields.Statement .hash := ⟨by decide, by decide, by decide⟩

end Sys2Proof.Laws
end

