-- ==== Sys2Proof/Laws/Step.lean ====
section
/-! SUPPORT. The step and the transactions, taken apart once: what a step runs, which offsets name a
register, what a command word does, and runs of several steps. -/

namespace Sys2Proof.Machine

/-! ### Steps -/

theorem step_nil {s : State} (h : s.pending = []) : step s = .next s := by simp [step, h]

theorem step_cons {s : State} {e : HostStep} {rest : List HostStep} (h : s.pending = e :: rest) :
    step s = hostStep e (s.withPending rest) := by simp [step, h]

theorem step_bus {s : State} {t : Transaction} {rest : List HostStep} (h : s.pending = .bus t :: rest) :
    step s = transact t (s.withPending rest) := step_cons h

/-- A run of one more step. -/
theorem run_succ {s t : State} (n : Nat) (h : step s = .next t) :
    Sys2Proof.core.run (n + 1) s = Sys2Proof.core.run n t := by
  have h' : Sys2Proof.core.step s = .next t := h
  simp only [Host.Core.run.eq_def Sys2Proof.core (n + 1) s, h']

/-! ### Commands -/

/-- No command stops the machine (R272). -/
theorem exec_next (i : Instr) (s : State) : ∃ t, exec i s = .next t := by
  cases i <;> exact ⟨_, rfl⟩

/-- A command word runs a command or is reported as illegal. -/
theorem commandWord_cases (w : Word) (s : State) :
    (∃ i, decode w = .ok i ∧ commandWord w s = exec i s) ∨
    (∃ e, decode w = .error e ∧ commandWord w s = .next (s.cmdError .illegal)) := by
  unfold commandWord
  cases h : decode w <;> simp

/-! ### Offsets -/

/-- The offset and the location the bus finds there belong together. -/
def offsetAgrees (off : Nat) : Bool :=
  match Reg.atOffset off with
  | .error _ => decide (off % 4 ≠ 0 ∨ off ∈ reservedOffsets)
  | .ok r => decide (off = r.offset ∧ (r.readOnly = true ↔ off = 0x004 ∨ off = 0x018 ∨ 0x080 ≤ off))

theorem offsetAgrees_all : ∀ off : Fin 0x100, offsetAgrees off = true := by decide +kernel

theorem Reg.atOffset_of_ge {off : Nat} (h : 0x100 ≤ off) : ∃ e, Reg.atOffset off = .error e := by
  unfold Reg.atOffset
  by_cases h4 : off % 4 ≠ 0
  · exact ⟨_, if_pos h4⟩
  · rw [if_neg h4, if_pos h]; exact ⟨_, rfl⟩

/-- The register map is injective: an offset names at most one location, the one at that offset. -/
theorem Reg.offset_of_atOffset {off : Nat} {r : Reg} (h : Reg.atOffset off = .ok r) : off = r.offset := by
  by_cases hl : off < 0x100
  · have h' := offsetAgrees_all ⟨off, hl⟩
    simp only [offsetAgrees, h, decide_eq_true_eq] at h'
    exact h'.1
  · obtain ⟨e, he⟩ := Reg.atOffset_of_ge (Nat.le_of_not_lt hl)
    rw [he] at h; cases h

/-- The offsets that refuse a write although they name a register. -/
theorem Reg.readOnly_iff {off : Nat} {r : Reg} (h : Reg.atOffset off = .ok r) :
    r.readOnly = true ↔ off = 0x004 ∨ off = 0x018 ∨ 0x080 ≤ off := by
  by_cases hl : off < 0x100
  · have h' := offsetAgrees_all ⟨off, hl⟩
    simp only [offsetAgrees, h, decide_eq_true_eq] at h'
    exact h'.2
  · obtain ⟨e, he⟩ := Reg.atOffset_of_ge (Nat.le_of_not_lt hl)
    rw [he] at h; cases h

/-- A misaligned offset below 0x100 and a reserved one name no register; every other one does. -/
theorem Reg.atOffset_error {off : Nat} {e : BusError} (hl : off < 0x100) (h : Reg.atOffset off = .error e) :
    off % 4 ≠ 0 ∨ off ∈ reservedOffsets := by
  have h' := offsetAgrees_all ⟨off, hl⟩
  simpa only [offsetAgrees, h, decide_eq_true_eq] using h'

end Sys2Proof.Machine
end

