-- ==== Sys2Proof/Tests/Slice0.lean ====
section
/-! SUPPORT. Tests of the model against the spec's own numbers (95_test_vectors.md and the worked
examples of the rules, named in each comment), well-formedness smoke tests, and for every obligation
with hypotheses a witness that meets them. -/

namespace Sys2Proof.Tests

open Sys2Proof Sys2Proof.Machine

set_option Elab.async false

/-! ### Helpers -/

/-- The `n` bytes the spec writes as one hexadecimal number. -/
def bytesOf (n v : Nat) : Bytes := (List.range n).map fun i => BitVec.ofNat 8 (v / 256 ^ (n - 1 - i))

/-- The state an outcome leaves. -/
def after : Host.Outcome State Fault Refusal → State
  | .next t => t
  | .fault _ => State.reset
  | .refused _ => State.reset

/-- The key of V-KS1. -/
def key1 : Vector Word 4 := #v[0x01234567, 0x89ABCDEF, 0xFEDCBA98, 0x76543210]

/-- The IV of section 2.5. -/
def iv1 : Vector Word 4 := #v[0x00010203, 0x04050607, 0x08090A0B, 0x0C0D0E0F]

/-- The schedule of V-KS1. -/
def rk1 : Vector Word 32 :=
  #v[0xF12186F9, 0x41662B61, 0x5A6AB19A, 0x7BA92077, 0x367360F4, 0x776A0C61, 0xB6BB89B3, 0x24763151,
    0xA520307C, 0xB7584DBD, 0xC30753ED, 0x7EE55B57, 0x6988608C, 0x30D895B7, 0x44BA14AF, 0x104495A1,
    0xD120B428, 0x73B55FA3, 0xCC874966, 0x92244439, 0xE89E641F, 0x98CA015A, 0xC7159060, 0x99E1FD2E,
    0xB79BD80C, 0x1D2115B0, 0x0E228AEB, 0xF1780C81, 0x428D3654, 0x62293496, 0x01CF72E5, 0x9124A012]

/-- A CORE with the schedule of V-KS1. -/
def keyed : State := { State.reset with key := key1, rk := rk1, iv := iv1, rkv := true }

/-- Descriptors set and an input placed at `SRC` (section 2.5). -/
def withInput (s : State) (src dst len : Nat) (v : Bytes) : State :=
  { s with
    src := BitVec.ofNat 32 src, dst := BitVec.ofNat 32 dst, len := BitVec.ofNat 32 len,
    buf := s.buf.setBytes src v }

/-- A CORE with one transaction pending. -/
def sending (s : State) (t : Transaction) : State := { s with pending := [.bus t] }

/-! ### Well-formedness refuses -/

theorem test_wf_misaligned_write : Transaction.wf Config.atReset (.wr 0x022 0) = false := by decide
theorem test_wf_misaligned_read : Transaction.wf Config.atReset (.rd 0x022) = false := by decide
theorem test_wf_reserved_read : Transaction.wf Config.atReset (.rd 0x01C) = false := by decide
theorem test_wf_reserved_write : Transaction.wf Config.atReset (.wr 0x05C 0) = false := by decide
theorem test_wf_beyond_register_file : Transaction.wf Config.atReset (.rd 0x100) = false := by decide
theorem test_wf_write_status : Transaction.wf Config.atReset (.wr 0x004 0) = false := by decide
theorem test_wf_write_outlen : Transaction.wf Config.atReset (.wr 0x018 0) = false := by decide
theorem test_wf_write_round_key : Transaction.wf Config.atReset (.wr 0x080 0) = false := by decide
theorem test_wf_put_outside : Transaction.wf Config.atReset (.put 0xFFF [0, 0]) = false := by decide
theorem test_wf_get_outside : Transaction.wf Config.atReset (.get 0xFFF 2) = false := by decide
theorem test_wf_program_refused :
    programWf Config.atReset [.reset, .bus (.rd 0x004), .bus (.wr 0x004 0)] = false := by decide
theorem test_wf_parameter_zero : Config.wf { bufBytes := 0 } = false := by decide
theorem test_wf_parameter_too_large : Config.wf { bufBytes := 2 ^ 32 } = false := by decide
/-- The largest accesses that are still inside. -/
theorem test_wf_inside : programWf Config.atReset
    [.bus (.put 0xFFE [0, 0]), .bus (.get 0x1000 0), .bus (.rd 0x0FC), .powerUp] = true := by decide

/-! ### Decoding: the words of R91 and spec/opcode_table.json -/

theorem test_decode_keyexp : decode 0b00000000000000000000000000000001#32 = .ok .keyexp := by rfl
theorem test_decode_encblk : decode 0b00000000000000000000000000000010#32 = .ok .encblk := by rfl
theorem test_decode_decblk : decode 0b00000000000000000000000000000011#32 = .ok .decblk := by rfl
theorem test_decode_cbcenc : decode 0b00000000000000000000000000000100#32 = .ok .cbcenc := by rfl
theorem test_decode_cbcdec : decode 0b00000000000000000000000000000101#32 = .ok .cbcdec := by rfl
theorem test_decode_ecbenc : decode 0b00000000000000000000000000000110#32 = .ok .ecbenc := by rfl
theorem test_decode_ecbdec : decode 0b00000000000000000000000000000111#32 = .ok .ecbdec := by rfl
theorem test_decode_hinit : decode 0b00000000000000000000000000001000#32 = .ok .hinit := by rfl
theorem test_decode_hblock : decode 0b00000000000000000000000000001001#32 = .ok .hblock := by rfl
theorem test_decode_hash : decode 0b00000000000000000000000000001010#32 = .ok .hash := by rfl
/-- V-ERR16. -/
theorem test_decode_zero : decode 0x00000000#32 = .error .opcodeUnassigned := by rfl
/-- V-ERR17. -/
theorem test_decode_first_unassigned : decode 0x0000000B#32 = .error .opcodeUnassigned := by rfl
/-- V-ERR18. -/
theorem test_decode_bit8 : decode 0x00000104#32 = .error .zeroFieldNotZero := by rfl
theorem test_decode_bit31 : decode 0x80000001#32 = .error .zeroFieldNotZero := by rfl
theorem test_decodeTableWord : decodeTableWord 32 0x0000000A = some .hash := by rfl
theorem test_withFetchWord :
    (after (step (State.reset.withFetchWord 32 0x00000008))).h[7] = 0xB0FB0E4E := by decide

/-! ### Primitives: section 2.1 -/

/-- V-PR1, V-PR3, V-PR4. -/
theorem test_rotl : rotl 0x80000001 1 = 0x00000003 ∧ rotl 0x12345678 8 = 0x34567812 ∧
    rotl 0x12345678 31 = 0x091A2B3C := by decide
/-- V-PR9. -/
theorem test_tau : tau 0xEF0110FF = 0x84902B48 := by decide
/-- V-PR12 to V-PR15. -/
theorem test_transforms : Lkey 0x80000000 = 0x80401000 ∧ Lrnd 0x80000000 = 0x80820202 ∧
    Tkey 0x00010203 = 0x34C47B58 ∧ Trnd 0x00010203 = 0x96597FF5 := by decide
/-- V-PR20, V-PR21. -/
theorem test_permutations : P0 0x80000000 = 0x80010100 ∧ P1 0x80000000 = 0x80404000 := by decide
/-- V-PR22 to V-PR25. -/
theorem test_selections :
    FF 15 0xF0F0F0F0 0xCCCCCCCC 0xAAAAAAAA = 0x96969696 ∧ FF 16 0xF0F0F0F0 0xCCCCCCCC 0xAAAAAAAA = 0xE8E8E8E8 ∧
    GG 15 0xF0F0F0F0 0xCCCCCCCC 0xAAAAAAAA = 0x96969696 ∧
    GG 16 0xF0F0F0F0 0xCCCCCCCC 0xAAAAAAAA = 0xCACACACA := by decide
/-- V-UNP2. -/
theorem test_unpad : unpad (bytesOf 16 0x4142434445464748494a4b4c4d4e0702) =
    (bytesOf 14 0x4142434445464748494a4b4c4d4e, false) := by decide
/-- V-HP4: 56 bytes spill into a second block. -/
theorem test_hpad_spills : (hpad (List.replicate 56 0x61)).length = 128 := by decide +kernel

/-! ### Commands -/

/-- V-KS1. -/
theorem test_keyexp_schedule : (after (exec .keyexp { State.reset with key := key1 })).rk = rk1 := by
  decide +kernel
/-- V-KS2, the zero key, and the status word of the example of R242. -/
theorem test_keyexp_zero_key : (after (exec .keyexp State.reset)).rk[31] = 0xA16CA108 ∧
    (after (exec .keyexp State.reset)).statusWord = 0x00000002 := by decide +kernel
/-- V-BLK1. -/
theorem test_encblk : (after (exec .encblk { keyed with blk := key1 })).blk =
    #v[0x681EDF34, 0xD206965E, 0x86B3E94F, 0x536E4246] := by decide +kernel
/-- V-BLK5. -/
theorem test_encblk_no_key : (after (exec .encblk State.reset)).statusWord = 0x00000200 := by decide
/-- V-BLK4. -/
theorem test_decblk : (after (exec .decblk keyed)).blk =
    #v[0xF7D6B57E, 0xD4BA6AE1, 0xA630FAC4, 0x505C98A0] := by decide +kernel
/-- V-CBC5: two blocks, the second chained. -/
theorem test_cbcenc : (after (exec .cbcenc
      (withInput keyed 0x100 0x200 17 (bytesOf 17 0x101112131415161718191a1b1c1d1e1f20)))).memRead 0x200 32 =
    bytesOf 32 0x002a8a4efa863ccad024ac0300bb40d29dc1f3ccea3ed3e6e27310ada6cbcb64 := by decide +kernel
/-- V-ERR15: no wrap-around in the range check. -/
theorem test_cbcenc_no_wrap :
    (after (exec .cbcenc (withInput keyed 0xFFFFFFF0 0 0xFFFFFFFF []))).statusWord = 0x00000402 := by
  decide +kernel

/-- The two-block input of V-DEC8. -/
def dec8 : State :=
  withInput keyed 0x100 0x200 32
    (bytesOf 32 0x54207c48e501eaf62c3ef5337df44eb34a6b596123bb9d474313921369512b9d)

/-- V-DEC8, `STRICT = 0`. -/
theorem test_cbcdec_passes_bad_padding :
    (after (exec .cbcdec dec8)).memRead 0x200 32 =
      bytesOf 32 0x303132333435363738393a3b3c3d3e3f4142434445464748494a4b4c4d4e4f00 ∧
    (after (exec .cbcdec dec8)).outlen = 32 ∧ (after (exec .cbcdec dec8)).statusWord = 0x00000006 := by
  decide +kernel
/-- V-DEC8, `STRICT = 1`. -/
theorem test_cbcdec_strict :
    (after (exec .cbcdec { dec8 with strict := true })).buf = dec8.buf ∧
    (after (exec .cbcdec { dec8 with strict := true })).statusWord = 0x00000606 := by decide +kernel
/-- V-ECB5. -/
theorem test_ecbenc : (after (exec .ecbenc
      (withInput keyed 0x100 0x200 17 (bytesOf 17 0x101112131415161718191a1b1c1d1e1f20)))).memRead 0x200 32 =
    bytesOf 32 0x4b910651754b5553f10cfa0c8a09e9e5e19846bc38d4ab6ec6d896735f5b22ad := by decide +kernel
/-- V-ERR12: the output ends inside the input. -/
theorem test_ecbenc_overlap :
    (after (exec .ecbenc (withInput keyed 0x100 0x0F0 16 []))).statusWord = 0x00000502 := by decide +kernel
/-- V-DEC2, the codebook input. -/
theorem test_ecbdec :
    (after (exec .ecbdec
      (withInput keyed 0x100 0x200 16 (bytesOf 16 0xdacc610efd625d22a66bebfb60220736)))).memRead 0x200 16 =
      bytesOf 16 0x4142434445464748494a4b4c4d4e0702 ∧
    (after (exec .ecbdec
      (withInput keyed 0x100 0x200 16 (bytesOf 16 0xdacc610efd625d22a66bebfb60220736)))).outlen = 14 := by
  decide +kernel
/-- V-ERR4. -/
theorem test_ecbdec_length :
    (after (exec .ecbdec (withInput keyed 0x100 0x200 17 []))).statusWord = 0x00000302 := by decide +kernel
/-- The example of R210. -/
theorem test_hinit : (after (exec .hinit State.reset)).h[0] = 0x7380166F := by decide
/-- V-H5: the block V-HP9 into the zero state. -/
theorem test_hblock : (after (exec .hblock (withInput State.reset 0x100 0 0
      (bytesOf 64 (0x61626380 * 256 ^ 60 + 0x18))))).h =
    #v[0x493B4001, 0xF9418B45, 0xE34CAC0D, 0xF066E833, 0x5AE0D4CE, 0x62DBE946, 0x65224274, 0xB50771AC] := by
  decide +kernel
/-- V-ERR19: one byte too far. -/
theorem test_hblock_range :
    (after (exec .hblock (withInput keyed 0xFC1 0 0 []))).statusWord = 0x00000402 := by decide +kernel
/-- V-H1. -/
theorem test_hash : (after (exec .hash (withInput State.reset 0x100 0x300 3 (bytesOf 3 0x616263)))).memRead 0x300 32 =
    bytesOf 32 0x66c7f0f462eeedd9d1f2d46bdc10e4e24167c4875cf2f7a2297da02b8f4ba8e0 := by decide +kernel
/-- V-H4b: 56 bytes, two blocks, and in place. -/
theorem test_hash_two_blocks : (after (exec .hash
      (withInput State.reset 0x100 0x100 56 (List.replicate 56 0x61)))).memRead 0x100 32 =
    bytesOf 32 0xba00ebedaab54065a5fd4f9f56326016203166bcee3eed44ea868d59d67aa3c8 := by decide +kernel

/-! ### Host access: section 2.9 -/

/-- V-HA3. -/
theorem test_ctrl_reserved_bits :
    (after (step (sending State.reset (.wr 0x008 0xFFFFFFFF)))).ctrlWord = 0x00000001 := by decide
/-- V-HA10. -/
theorem test_read_last_round_key :
    (after (step (sending keyed (.rd 0x0FC)))).responses = [.word 0x9124A012] := by decide +kernel
/-- V-HA13. -/
theorem test_iv_write_keeps_schedule :
    (after (step (sending keyed (.wr 0x030 0x11111111)))).rkv = true := by decide +kernel
/-- V-KS4: the same value written again. -/
theorem test_key_write_invalidates :
    (after (step (sending keyed (.wr 0x020 0x01234567)))).rkv = false ∧
    (after (step (sending keyed (.wr 0x020 0x01234567)))).rk[0] = 0xF12186F9 := by decide +kernel
/-- V-HA5, V-HA9. -/
theorem test_bus_errors :
    (match step (sending keyed (.wr 0x018 0)) with | .refused r => some r | _ => none) =
      some (.busError .readOnly) ∧
    (match step (sending keyed (.rd 0x022)) with | .refused r => some r | _ => none) =
      some (.busError .misaligned) := by decide +kernel
/-- The example of R96. -/
theorem test_setkey : setKey (bytesOf 16 0x0123456789abcdeffedcba9876543210) =
    [.wr 0x020 0x01234567, .wr 0x024 0x89ABCDEF, .wr 0x028 0xFEDCBA98, .wr 0x02C 0x76543210] := by
  decide +kernel
/-- P4, transactions 6, 7 and 16: an illegal word is reported, a refused write changes nothing. -/
theorem test_illegal_then_refused :
    (keyed.afterTransactions [.wr 0x000 0x000000FF, .wr 0x004 0]).statusWord = 0x00000102 := by decide +kernel

/-! ### Witnesses: for each obligation with hypotheses, states and operands that meet them

One theorem per obligation, named after it; where a statement has several clauses, one witness for each,
at the ends of the ranges. -/

/-- An admitted message of three bytes, from 0x100 to 0x200. -/
def abc : State := withInput keyed 0x100 0x200 3 (bytesOf 3 0x616263)

/-- A state in which an encryption is admitted. -/
theorem admitsEncrypt {s : State} (h : s.encryptError = none) : s.Admits .cbcenc ∧ s.Admits .ecbenc :=
  ⟨(s.admits_encrypt (.inl rfl)).2 h, (s.admits_encrypt (.inr rfl)).2 h⟩

/-- A state in which a decryption is admitted. -/
theorem admitsDecrypt {s : State} (h : s.decryptError = none) : s.Admits .cbcdec ∧ s.Admits .ecbdec :=
  ⟨(s.admits_decrypt (.inl rfl)).2 h, (s.admits_decrypt (.inr rfl)).2 h⟩

theorem witness_EncblkTransformsBlock : keyed.rkv = true ∧ State.reset.rkv = false := by decide

theorem witness_DecblkWalksKeysInReverse : keyed.rkv = true ∧ State.reset.rkv = false := by decide

theorem witness_BlockFunctionsAreInverse : (bytesOf 16 0x0123456789abcdeffedcba9876543210).length = 16 := by
  decide

theorem witness_BlockCommandsUndoEachOther : keyed.rkv = true ∧
    (Instr.encblk, Instr.decblk) ∈ [(Instr.encblk, Instr.decblk), (Instr.decblk, Instr.encblk)] ∧
    (Instr.decblk, Instr.encblk) ∈ [(Instr.encblk, Instr.decblk), (Instr.decblk, Instr.encblk)] := by decide

theorem witness_RotateMovesBits : ∀ p ∈ [(0, 0), (0, 31), (31, 0), (31, 31)], p.1 ≤ 31 ∧ p.2 < 32 := by decide

theorem witness_BlockWordsAndBytesAreInverse : (bytesOf 16 0x4301693c448c7da7cff13f84690f7dea).length = 16 := by
  decide

theorem witness_PadAppendsCountedBytes : ([] : Bytes).length % 16 = 0 := by decide

/-- The ends of both ranges of the last byte. -/
theorem witness_UnpadReadsLastByteOnly : ((List.replicate 15 (0 : Byte)).length + 1) % 16 = 0 ∧
    (∀ p ∈ [(1 : Byte), 16], 1 ≤ p.toNat ∧ p.toNat ≤ 16) ∧
    (∀ p ∈ [(0 : Byte), 17, 255], p.toNat = 0 ∨ 17 ≤ p.toNat) := by decide

/-- V-ERR10, V-ERR13, V-ERR14 and V-CBC2 are admitted; V-ERR1, V-ERR7 and V-ERR11 fail. -/
theorem witness_CbcencChainsCiphertext :
    (withInput keyed 0x1000 0 0 []).Admits .cbcenc ∧ (withInput keyed 0x100 0x0E0 16 []).Admits .cbcenc ∧
    (withInput keyed 0x100 0x100 16 []).Admits .cbcenc ∧ abc.Admits .cbcenc ∧ abc.cfg.wf = true ∧
    State.reset.FirstFailure .cbcenc .noKey ∧
    (withInput keyed 0x100 0xFF0 16 []).FirstFailure .cbcenc .resource ∧
    (withInput keyed 0x100 0x108 16 []).FirstFailure .cbcenc .overlap :=
  ⟨(admitsEncrypt (by decide +kernel)).1, (admitsEncrypt (by decide +kernel)).1,
    (admitsEncrypt (by decide +kernel)).1, (admitsEncrypt (by decide +kernel)).1, by decide,
    (State.firstFailure_encrypt _ (.inl rfl) _).2 (by decide +kernel),
    (State.firstFailure_encrypt _ (.inl rfl) _).2 (by decide +kernel),
    (State.firstFailure_encrypt _ (.inl rfl) _).2 (by decide +kernel)⟩

theorem witness_EcbencEncryptsEachBlock :
    (withInput keyed 0x1000 0 0 []).Admits .ecbenc ∧ (withInput keyed 0x100 0x0E0 16 []).Admits .ecbenc ∧
    (withInput keyed 0x100 0x100 16 []).Admits .ecbenc ∧ abc.Admits .ecbenc ∧ abc.cfg.wf = true ∧
    State.reset.FirstFailure .ecbenc .noKey ∧
    (withInput keyed 0x100 0xFF0 16 []).FirstFailure .ecbenc .resource ∧
    (withInput keyed 0x100 0x108 16 []).FirstFailure .ecbenc .overlap :=
  ⟨(admitsEncrypt (by decide +kernel)).2, (admitsEncrypt (by decide +kernel)).2,
    (admitsEncrypt (by decide +kernel)).2, (admitsEncrypt (by decide +kernel)).2, by decide,
    (State.firstFailure_encrypt _ (.inr rfl) _).2 (by decide +kernel),
    (State.firstFailure_encrypt _ (.inr rfl) _).2 (by decide +kernel),
    (State.firstFailure_encrypt _ (.inr rfl) _).2 (by decide +kernel)⟩

/-- One ciphertext block of section 2.5 at 0x100, to be decrypted to 0x200. -/
def oneBlock (v : Nat) : State := withInput keyed 0x100 0x200 16 (bytesOf 16 v)

/-- The last byte CBCDEC decrypts. -/
def lastCbc (s : State) : Byte :=
  (cbcDecryptRaw (s.memRead s.srcAddr s.lenBytes) s.rk (bytes16 s.iv)).getD (s.lenBytes - 1) 0

/-- The last byte ECBDEC decrypts. -/
def lastEcb (s : State) : Byte := (ecbDecryptRaw (s.memRead s.srcAddr s.lenBytes) s.rk).getD (s.lenBytes - 1) 0

/-- Every failed check, and an admitted decryption. -/
theorem witness_CbcdecChainsCiphertext :
    dec8.Admits .cbcdec ∧ dec8.cfg.wf = true ∧ State.reset.FirstFailure .cbcdec .noKey ∧
    (withInput keyed 0x100 0x200 0 []).FirstFailure .cbcdec .length ∧
    (withInput keyed 0xFF1 0 16 []).FirstFailure .cbcdec .resource ∧
    (withInput keyed 0x100 0x10F 16 []).FirstFailure .cbcdec .overlap :=
  ⟨(admitsDecrypt (by decide +kernel)).1, by decide,
    (State.firstFailure_decrypt _ (.inl rfl) _).2 (by decide +kernel),
    (State.firstFailure_decrypt _ (.inl rfl) _).2 (by decide +kernel),
    (State.firstFailure_decrypt _ (.inl rfl) _).2 (by decide +kernel),
    (State.firstFailure_decrypt _ (.inl rfl) _).2 (by decide +kernel)⟩

/-- The ends of the ranges of the last byte: V-DEC1 (1), V-DEC3 (16), V-DEC4 (0), V-DEC5 (17). -/
theorem witness_CbcdecChainsCiphertext_lastByte :
    lastCbc (oneBlock 0x0ea52578aa353a6d5adafcdb9c8cad6e) = 1 ∧
    lastCbc (oneBlock 0x4b910651754b5553f10cfa0c8a09e9e5) = 16 ∧
    lastCbc (oneBlock 0x06989c613da668ad2a8df782e1a8f96a) = 0 ∧
    lastCbc (oneBlock 0xb7d7c16905920d163d9a3e83e5e9f4b6) = 17 := by decide +kernel

theorem witness_EcbdecDecryptsEachBlock :
    dec8.Admits .ecbdec ∧ dec8.cfg.wf = true ∧ State.reset.FirstFailure .ecbdec .noKey ∧
    (withInput keyed 0x100 0x200 0 []).FirstFailure .ecbdec .length ∧
    (withInput keyed 0xFF1 0 16 []).FirstFailure .ecbdec .resource ∧
    (withInput keyed 0x100 0x10F 16 []).FirstFailure .ecbdec .overlap :=
  ⟨(admitsDecrypt (by decide +kernel)).2, by decide,
    (State.firstFailure_decrypt _ (.inr rfl) _).2 (by decide +kernel),
    (State.firstFailure_decrypt _ (.inr rfl) _).2 (by decide +kernel),
    (State.firstFailure_decrypt _ (.inr rfl) _).2 (by decide +kernel),
    (State.firstFailure_decrypt _ (.inr rfl) _).2 (by decide +kernel)⟩

/-- V-DEC1, V-DEC3, V-DEC4, V-DEC5, the codebook inputs. -/
theorem witness_EcbdecDecryptsEachBlock_lastByte :
    lastEcb (oneBlock 0x24114b6f54b30ae58c56b4390668057f) = 1 ∧
    lastEcb (oneBlock 0x002a8a4efa863ccad024ac0300bb40d2) = 16 ∧
    lastEcb (oneBlock 0x2677f46b09c122cc975533105bd4a22a) = 0 ∧
    lastEcb (oneBlock 0x0a32afdbb290fab3a30455dfefd47bb8) = 17 := by decide +kernel

/-- Every code of a check is the first failure of some state, and `ERR_PADDING` is left by some. -/
theorem witness_ErrorCodesNameFirstFailure :
    (after (exec .cbcdec State.reset)).err = .noKey ∧
    (after (exec .cbcdec (withInput keyed 0x100 0x200 5 []))).err = .length ∧
    (after (exec .hblock (withInput keyed 0xFC1 0 0 []))).err = .resource ∧
    (after (exec .hash (withInput keyed 0x100 0x110 64 []))).err = .overlap ∧
    (after (exec .cbcdec { dec8 with strict := true })).err = .padding := by decide +kernel

/-- What R180 runs next: the output of the encryption as input, to `c`. -/
def decryptNext (e : Instr) (s : State) (c : Word) : State :=
  let t := after (exec e s)
  { t with src := s.dst, len := t.outlen, dst := c }

/-- The message "abc", decrypted in place and into a fresh buffer (P2). -/
theorem witness_DecryptionUndoesEncryption : (bytes16 iv1).length = 16 ∧ abc.cfg.wf = true ∧ abc.Admits .cbcenc ∧ abc.Admits .ecbenc ∧
    (decryptNext .cbcenc abc 0x200).Admits .cbcdec ∧ (decryptNext .cbcenc abc 0x300).Admits .cbcdec ∧
    (decryptNext .ecbenc abc 0x200).Admits .ecbdec ∧ (decryptNext .ecbenc abc 0x300).Admits .ecbdec :=
  ⟨by decide, by decide, (admitsEncrypt (by decide +kernel)).1, (admitsEncrypt (by decide +kernel)).2,
    (admitsDecrypt (by decide +kernel)).1, (admitsDecrypt (by decide +kernel)).1,
    (admitsDecrypt (by decide +kernel)).2, (admitsDecrypt (by decide +kernel)).2⟩

/-- Each of the five commands, admitted in place and into a fresh buffer. -/
theorem witness_InPlaceMatchesFreshBuffer :
    let s : State := { dec8 with dst := dec8.src }
    let r : State := { s with dst := 0x200 }
    s.dst = s.src ∧ (s.Admits .cbcdec ∧ s.Admits .ecbdec) ∧ (s.Admits .cbcenc ∧ s.Admits .ecbenc) ∧
      s.Admits .hash ∧ (r.Admits .cbcdec ∧ r.Admits .ecbdec) ∧ (r.Admits .cbcenc ∧ r.Admits .ecbenc) ∧
      r.Admits .hash :=
  ⟨rfl, admitsDecrypt (by decide +kernel), admitsEncrypt (by decide +kernel),
    (State.admits_hash _).2 (by decide +kernel), admitsDecrypt (by decide +kernel),
    admitsEncrypt (by decide +kernel), (State.admits_hash _).2 (by decide +kernel)⟩

/-- The first and the last zero byte of the padding of the empty message. -/
theorem witness_HashPaddingLayout : ∀ j ∈ [1, 55],
    ([] : Bytes).length < j ∧ j + 8 < (hpad []).length := by decide +kernel

/-- The last address that fits and the first that does not. -/
theorem witness_HblockCompressesBlock :
    (withInput keyed 0xFC0 0 0 []).srcAddr + 64 ≤ keyed.cfg.bufBytes ∧
    keyed.cfg.bufBytes < (withInput keyed 0xFC1 0 0 []).srcAddr + 64 := by decide +kernel

/-- V-ERR22 and V-ERR23 are admitted; V-ERR21 and a destination that does not fit fail. -/
theorem witness_HashDigestsMessage :
    (withInput keyed 0x100 0x100 64 []).Admits .hash ∧ (withInput keyed 0x100 0x100 0 []).Admits .hash ∧
    (withInput keyed 0x100 0x110 64 []).FirstFailure .hash .overlap ∧
    (withInput keyed 0x100 0xFE1 64 []).FirstFailure .hash .resource :=
  ⟨(State.admits_hash _).2 (by decide +kernel), (State.admits_hash _).2 (by decide +kernel),
    (State.firstFailure_hash _ _).2 (by decide +kernel), (State.firstFailure_hash _ _).2 (by decide +kernel)⟩

theorem witness_HashIsHinitThenHblocks : abc.Admits .hash ∧
    (withInput keyed 0xFC0 0 0 []).srcAddr + 64 ≤ (withInput keyed 0xFC0 0 0 []).cfg.bufBytes :=
  ⟨(State.admits_hash _).2 (by decide +kernel), by decide +kernel⟩

/-- Two states that differ in every register HASH does not read. -/
theorem witness_HashReadsMessageOnly :
    let s := withInput State.reset 0x100 0x200 3 (bytesOf 3 0x616263)
    let r : State := { abc with h := HIV, blk := key1, strict := true }
    s.src = r.src ∧ s.dst = r.dst ∧ s.len = r.len ∧ s.cfg = r.cfg ∧ SameBuf s r ∧
      (∃ t, exec .hash s = .next t) ∧ (∃ u, exec .hash r = .next u) ∧ s.h ≠ r.h :=
  ⟨rfl, rfl, rfl, rfl, fun _ => rfl, exec_next _ _, exec_next _ _, by decide +kernel⟩

/-- For each row of the table a command that leaves that column alone. -/
theorem witness_CommandsWriteOnlyTheirColumns : Instr.hash ≠ .keyexp ∧
    Instr.hash ∉ [Instr.encblk, Instr.decblk] ∧ Instr.keyexp ∉ [Instr.hinit, Instr.hblock, Instr.hash] ∧
    Instr.hblock ∉ [Instr.cbcenc, Instr.cbcdec, Instr.ecbenc, Instr.ecbdec, Instr.hash] := by decide

/-- A command that fails, and an illegal word. -/
theorem witness_FailureLeavesDataUnchanged :
    (∃ t, commandWord 0x00000002 State.reset = .next t ∧ t.err ≠ .ok) ∧
    ∃ t, commandWord 0x0000000B State.reset = .next t ∧ t.err ≠ .ok := ⟨⟨_, rfl, by decide⟩, _, rfl, by decide⟩

theorem witness_OperandsAreReadByTheirCommandsOnly : (∃ t, exec .hash abc = .next t) ∧
    Instr.hash ≠ .keyexp ∧ Instr.hash ∉ [Instr.cbcenc, Instr.cbcdec] ∧
    Instr.hash ∉ [Instr.cbcdec, Instr.ecbdec] := ⟨exec_next _ _, by decide, by decide, by decide⟩

theorem witness_DecodeSelectsExactWords : decode 0x00000001#32 = .ok .keyexp ∧
    decode 0x0000000A#32 = .ok .hash := ⟨rfl, rfl⟩

/-- V-ERR17, V-ERR16, V-ERR18 and the last opcode: one witness for each reason. -/
theorem witness_IllegalWordIsReported :
    (∀ w : Word, (sending keyed (.wr 0x000 w)).pending = [.bus (.wr 0x000 w)]) ∧
    0x0B ≤ ((0x0000000B : Word).extractLsb' 0 8).toNat ∧ (0x00000000 : Word).extractLsb' 0 8 = 0x00#8 ∧
    (0x00000104 : Word).extractLsb' 8 24 ≠ 0 ∧ 0x0B ≤ ((0x000000FF : Word).extractLsb' 0 8).toNat :=
  ⟨fun _ => rfl, by decide, by decide, by decide, by decide⟩

theorem witness_StepRunsDecodedCommand : decode 0x0000000A#32 = .ok .hash ∧
    (sending abc (.wr 0x000 0x0000000A)).pending = [.bus (.wr 0x000 0x0000000A)] := ⟨rfl, rfl⟩

theorem witness_IdleKeepsState : keyed.pending = [] := rfl

/-- The first and the last register of every clause. -/
theorem witness_HostWriteFollowsRegisterMap :
    ∀ off ∈ [0x000, 0x008, 0x00C, 0x010, 0x014, 0x020, 0x02C, 0x030, 0x03C, 0x040, 0x04C, 0x060, 0x07C,
      0x001, 0x100, 0x01C, 0x05C, 0x004, 0x018, 0x080],
      (sending keyed (.wr off 0xFFFFFFFF)).pending = [.bus (.wr off 0xFFFFFFFF)] := fun _ _ => rfl

theorem witness_HostReadFollowsRegisterMap :
    ∀ off ∈ [0x000, 0x004, 0x008, 0x00C, 0x010, 0x014, 0x018, 0x020, 0x02C, 0x030, 0x03C, 0x040, 0x04C,
      0x060, 0x07C, 0x080, 0x0FC, 0x0FF, 0x100, 0x01C, 0x05C],
      (sending keyed (.rd off)).pending = [.bus (.rd off)] := fun _ _ => rfl

/-- A refused transaction of each kind. -/
theorem witness_BusRefusesExactlyIllFormed :
    ∀ t ∈ [Transaction.wr 0x004 0, .wr 0x0FC 0, .rd 0x100, .rd 0x05C, .put 0xFFF [0, 0], .get 0x1001 0],
      (sending keyed t).pending = [.bus t] ∧ ∃ e, step (sending keyed t) = .refused (.busError e) := by
  intro t ht
  refine ⟨rfl, ?_⟩
  simp only [List.mem_cons, List.not_mem_nil, or_false] at ht
  rcases ht with rfl | rfl | rfl | rfl | rfl | rfl <;> exact ⟨_, rfl⟩

theorem witness_RegisterReadsBackWrite :
    (∀ off : Nat, ({ keyed with pending := [.bus (.wr off 5), .bus (.rd off)] } : State).pending =
      [.bus (.wr off 5), .bus (.rd off)]) ∧
    ∀ off ∈ [0x00C, 0x014, 0x020, 0x04C, 0x060, 0x07C], off % 4 = 0 ∧
      (0x00C ≤ off ∧ off ≤ 0x014 ∨ 0x020 ≤ off ∧ off < 0x050 ∨ 0x060 ≤ off ∧ off < 0x080) :=
  ⟨fun _ => rfl, by decide⟩

/-- Accesses that end at the end of `BUF`, and one byte beyond. -/
theorem witness_PutStoresAndGetReads :
    (∀ a, (sending keyed (.put a [1, 2])).pending = [.bus (.put a [1, 2])]) ∧
    (∀ a, (sending keyed (.get a 2)).pending = [.bus (.get a 2)]) ∧
    0xFFE + ([1, 2] : Bytes).length ≤ keyed.cfg.bufBytes ∧ keyed.cfg.bufBytes < 0xFFF + ([1, 2] : Bytes).length ∧
    0xFFE + 2 ≤ keyed.cfg.bufBytes ∧ keyed.cfg.bufBytes < 0xFFF + 2 :=
  ⟨fun _ => rfl, fun _ => rfl, by decide, by decide, by decide, by decide⟩

theorem witness_PseudoInstructionsWriteWholeRegisters : (bytes16 key1).length = 16 := by decide

theorem witness_KeyWriteInvalidatesSchedule : ∀ k : Fin 4,
    (sending keyed (.wr (0x020 + 4 * k) 0)).pending = [.bus (.wr (0x020 + 4 * k) 0)] := fun _ => rfl

theorem witness_RoundKeysChangeOnlyByKeyexp :
    ∃ t, step (sending State.reset (.wr 0x000 0x00000001)) = .next t ∧ t.rk ≠ State.reset.rk :=
  ⟨_, rfl, by decide +kernel⟩

theorem witness_ResetZeroesRegistersKeepsBuf :
    ({ abc with pending := [.reset] } : State).pending = [.reset] := rfl

theorem witness_PowerUpForgetsBuf : ({ abc with pending := [.powerUp] } : State).pending = [.powerUp] := rfl

/-- A keyed state with a message has the invariant, and steps. -/
theorem witness_StepKeepsInvariant : (sending abc (.wr 0x000 0x00000004)).Inv ∧
    ∃ t, step (sending abc (.wr 0x000 0x00000004)) = .next t :=
  ⟨⟨by decide, by decide +kernel, by decide +kernel, fun _ => by decide +kernel, by decide, by decide, by decide,
    by decide⟩, _, rfl⟩

theorem witness_WellFormedProgramRunsToEnd :
    programWf keyed.cfg [.bus (.put 0x100 [1]), .bus (command .hash), .reset, .bus (.rd 0x0FC)] = true := by
  decide +kernel

theorem witness_StepKeepsProgramWellFormed :
    programWf keyed.cfg [.powerUp, .bus (.get 0xFFF 1), .bus (.wr 0x000 0)] = true ∧
    programWf keyed.cfg [] = true := by
  decide +kernel

end Sys2Proof.Tests
end

section
/-! PROOFS. The reset input. -/

namespace Sys2Proof.Machine

/-- R33. `CTRL` reads zero when `STRICT` is clear. -/
theorem State.ctrlWord_eq_zero {s : State} (hstrict : s.strict = false) : s.ctrlWord = 0 := by
  rw [State.ctrlWord, hstrict]
  decide

/-- R31, R260. `STATUS` reads zero when both flags are clear and the error code is `OK`. -/
theorem State.statusWord_eq_zero {s : State} (hrkv : s.rkv = false) (hpadbad : s.padbad = false)
    (herr : s.err = .ok) : s.statusWord = 0 := by
  rw [State.statusWord, hrkv, hpadbad, herr]
  decide

@[simp] theorem State.resetRegisters_ctrlWord (s : State) : s.resetRegisters.ctrlWord = 0 :=
  State.ctrlWord_eq_zero s.resetRegisters_strict

@[simp] theorem State.resetRegisters_statusWord (s : State) : s.resetRegisters.statusWord = 0 :=
  State.statusWord_eq_zero s.resetRegisters_rkv s.resetRegisters_padbad s.resetRegisters_err

/-- R290. A pending reset completes, and its state is the reset registers before the rest of the list. -/
theorem step_reset {s : State} {rest : List HostStep} (h : s.pending = .reset :: rest) :
    step s = .next (s.withPending rest).resetRegisters := by
  rw [step_cons h, hostStep]

/-- Settles O46: the step is `State.resetRegisters` after the reset is taken off the list, and the register
laws say what that holds; `BUF` is read through both unchanged. -/
theorem resetZeroesRegistersKeepsBuf : Obligations.ResetZeroesRegistersKeepsBuf := by
  intro s rest hpending
  refine ⟨_, step_reset hpending, ?_⟩
  have hbuf : SameBuf s (s.withPending rest).resetRegisters := fun a => by simp
  simp [hbuf]

end Sys2Proof.Machine
end

section
/-! PROOFS. The host's bytes in `BUF` (R77), and the result of a buffer command in place (R68). -/

namespace Sys2Proof.Machine

/-! ### Bytes by index -/

/-- R64. A store leaves its byte `i` at offset `i` from its address. -/
theorem State.readByte_memWrite_inside (s : State) (a : Nat) {v : Bytes} {i : Nat} (h : i < v.length) :
    (s.memWrite a v).readByte (a + i) = v.getD i 0 := by
  rw [State.readByte_memWrite, dif_pos (by omega)]
  simp [h]

/-- R63. Byte `i` of a read is the byte at offset `i` from its address. -/
theorem State.memRead_getD (s : State) (a : Nat) {n i : Nat} (h : i < n) :
    (s.memRead a n).getD i 0 = s.readByte (a + i) := by
  have hi : i < (s.memRead a n).length := by rwa [State.memRead_length]
  rw [List.getD_eq_getElem _ _ hi, State.memRead_getElem]

/-! ### PUT and GET -/

theorem hostPut_inside {s : State} {a : Nat} {v : Bytes} (h : a + v.length ≤ s.cfg.bufBytes) :
    hostPut a v s = .next (s.memWrite a v) :=
  if_pos ((s.fits_iff a v.length).2 h)

theorem hostPut_outside {s : State} {a : Nat} {v : Bytes} (h : s.cfg.bufBytes < a + v.length) :
    hostPut a v s = .refused (.busError .outsideBuf) :=
  if_neg fun hf => Nat.not_le_of_lt h ((s.fits_iff a v.length).1 hf)

theorem hostGet_inside {s : State} {a n : Nat} (h : a + n ≤ s.cfg.bufBytes) :
    hostGet a n s = .next (s.respond (.bytes (s.memRead a n))) :=
  if_pos ((s.fits_iff a n).2 h)

theorem hostGet_outside {s : State} {a n : Nat} (h : s.cfg.bufBytes < a + n) :
    hostGet a n s = .refused (.busError .outsideBuf) :=
  if_neg fun hf => Nat.not_le_of_lt h ((s.fits_iff a n).1 hf)

/-- A pending PUT is performed on the state whose list has lost it. -/
theorem step_put {s : State} {a : Nat} {v : Bytes} {rest : List HostStep}
    (h : s.pending = .bus (.put a v) :: rest) : step s = hostPut a v (s.withPending rest) :=
  step_bus h

/-- A pending GET is performed on the state whose list has lost it. -/
theorem step_get {s : State} {a n : Nat} {rest : List HostStep}
    (h : s.pending = .bus (.get a n) :: rest) : step s = hostGet a n (s.withPending rest) :=
  step_bus h

/-- Settles O42: inside `BUF` a PUT is one `memWrite` and a GET responds with one `memRead`, whose bytes
the laws of `BUF` give by index; outside, `fits` fails and the bus refuses. -/
theorem putStoresAndGetReads : Obligations.PutStoresAndGetReads := by
  refine ⟨fun s a v rest hpending => ⟨fun hin => ?_, fun hout => ?_⟩,
    fun s a n rest hpending => ⟨fun hin => ?_, fun hout => ?_⟩⟩
  · refine ⟨(s.withPending rest).memWrite a v, ?_, fun i hi => ?_, fun b hb => ?_, rfl⟩
    · exact (step_put hpending).trans (hostPut_inside hin)
    · exact State.readByte_memWrite_inside _ a hi
    · rw [State.readByte_memWrite_outside _ hb, State.withPending_readByte]
  · exact (step_put hpending).trans (hostPut_outside hout)
  · refine ⟨s.memRead a n, s.memRead_length a n, fun i hi => s.memRead_getD a hi, ?_⟩
    have hstep := (step_get hpending).trans (hostGet_inside hin)
    rwa [State.memRead_withPending] at hstep
  · exact (step_get hpending).trans (hostGet_outside hout)

/-! ### What a command reads after `DST` is moved -/

@[simp] theorem State.writeDst_srcAddr (s : State) (d : Word) : (s.writeDst d).srcAddr = s.srcAddr := rfl
@[simp] theorem State.writeDst_lenBytes (s : State) (d : Word) : (s.writeDst d).lenBytes = s.lenBytes := rfl
@[simp] theorem State.writeDst_dstAddr (s : State) (d : Word) : (s.writeDst d).dstAddr = d.toNat := rfl

@[simp] theorem State.memRead_writeDst (s : State) (d : Word) (a n : Nat) :
    (s.writeDst d).memRead a n = s.memRead a n := State.memRead_congr fun _ _ => rfl

/-! ### Two results that agree -/

/-- What software sees of a finished buffer command is the same in `t`, whose `n` output bytes lie at `a`,
and in `u`, whose output bytes lie at `b`. -/
def SameDelivery (n a b : Nat) (t u : State) : Prop :=
  t.err = u.err ∧ t.padbad = u.padbad ∧ t.outlen = u.outlen ∧ t.h = u.h ∧
    (t.err = .ok → t.memRead a n = u.memRead b n)

/-- The same bytes stored at two addresses are the same result. -/
theorem sameDelivery_memWrite {s r : State} {n : Nat} {d : Bytes} (hlen : d.length = n) (hh : r.h = s.h)
    (a b outlen : Nat) (padbad : Bool) :
    SameDelivery n a b ((s.memWrite a d).cmdDone outlen padbad) ((r.memWrite b d).cmdDone outlen padbad) := by
  refine ⟨rfl, rfl, rfl, hh.symm, fun _ => ?_⟩
  rw [← hlen, State.memRead_cmdDone, State.memRead_cmdDone, State.memRead_memWrite, State.memRead_memWrite]

/-- The same error is the same result. -/
theorem sameDelivery_cmdError {s r : State} {code : ErrCode} (hcode : code ≠ .ok) (hh : r.h = s.h)
    (n a b : Nat) : SameDelivery n a b (s.cmdError code) (r.cmdError code) :=
  ⟨rfl, rfl, rfl, hh.symm, fun hok => absurd hok hcode⟩

/-! ### The command shapes, admitted -/

theorem encryptCommand_admitted (f : Bytes → Bytes) {s : State} (h : s.encryptError = none) :
    encryptCommand f s =
      (s.memWrite s.dstAddr (f (s.memRead s.srcAddr s.lenBytes))).cmdDone (paddedLength s.lenBytes) false := by
  rw [encryptCommand, h]

theorem decryptCommand_admitted (f : Bytes → Bytes) {s : State} (h : s.decryptError = none) :
    decryptCommand f s = deliverDecrypted (f (s.memRead s.srcAddr s.lenBytes)) s := by
  rw [decryptCommand, h]

theorem exec_hash_admitted {s : State} (h : s.hashError = none) :
    exec .hash s = .next (deliverDigest (digestState (s.memRead s.srcAddr s.lenBytes)) s) := by
  rw [exec, execHash, h]

/-- R68, R176, R178. An admitted encryption delivers the same wherever `DST` lies. -/
theorem encryptCommand_sameDelivery {f : Bytes → Bytes} {s : State} {c : Word}
    (hf : ∀ m, (f m).length = paddedLength m.length)
    (hs : s.encryptError = none) (hc : (s.writeDst c).encryptError = none) :
    SameDelivery (paddedLength s.lenBytes) s.dstAddr c.toNat (encryptCommand f s)
      (encryptCommand f (s.writeDst c)) := by
  have hlen : (f (s.memRead s.srcAddr s.lenBytes)).length = paddedLength s.lenBytes := by
    rw [hf, State.memRead_length]
  rw [encryptCommand_admitted f hs, encryptCommand_admitted f hc, State.memRead_writeDst]
  exact sameDelivery_memWrite hlen (s.writeDst_h c) _ _ _ _

/-- R177, R179, R268. How decrypted bytes are delivered depends on their last byte and `STRICT`, not on
`DST`. -/
theorem deliverDecrypted_sameDelivery {n : Nat} {d : Bytes} (hlen : d.length = n) (s : State) (c : Word) :
    SameDelivery n s.dstAddr c.toNat (deliverDecrypted d s) (deliverDecrypted d (s.writeDst c)) := by
  unfold deliverDecrypted
  rw [State.writeDst_strict]
  split
  · exact sameDelivery_cmdError (code := .padding) (by decide) (s.writeDst_h c) _ _ _
  · exact sameDelivery_memWrite hlen (s.writeDst_h c) _ _ _ _

/-- R175. An admitted decryption has whole blocks to decrypt. -/
theorem State.lenBytes_mod_of_decryptError {s : State} (h : s.decryptError = none) : s.lenBytes % 16 = 0 := by
  obtain ⟨-, hlength, -⟩ := (s.admits_decrypt (.inl rfl)).2 h
  exact (hlength (by decide)).2

/-- R68, R177, R179. An admitted decryption delivers the same wherever `DST` lies. -/
theorem decryptCommand_sameDelivery {f : Bytes → Bytes} {s : State} {c : Word}
    (hf : ∀ m : Bytes, m.length % 16 = 0 → (f m).length = m.length)
    (hs : s.decryptError = none) (hc : (s.writeDst c).decryptError = none) :
    SameDelivery s.lenBytes s.dstAddr c.toNat (decryptCommand f s) (decryptCommand f (s.writeDst c)) := by
  have hmod := State.lenBytes_mod_of_decryptError hs
  have hlen : (f (s.memRead s.srcAddr s.lenBytes)).length = s.lenBytes := by
    rw [hf _ (by rwa [State.memRead_length]), State.memRead_length]
  rw [decryptCommand_admitted f hs, decryptCommand_admitted f hc, State.memRead_writeDst]
  exact deliverDecrypted_sameDelivery hlen s c

/-- R68, R212. A digest is delivered the same wherever `DST` lies. -/
theorem deliverDigest_sameDelivery (v : Vector Word 8) (s : State) (c : Word) :
    SameDelivery 32 s.dstAddr c.toNat (deliverDigest v s) (deliverDigest v (s.writeDst c)) :=
  sameDelivery_memWrite (s := s.setH v) (r := (s.writeDst c).setH v) (digestOf_length v) rfl _ _ _ _

/-- R68. An admitted command with an output range delivers the same wherever `DST` lies: it reads its
whole input before it writes. -/
theorem exec_sameDelivery {s : State} {c : Word} {i : Instr} (hi : i ∈ rangeCommands)
    (hs : s.Admits i) (hc : (s.writeDst c).Admits i) :
    ∃ t u, exec i s = .next t ∧ exec i (s.writeDst c) = .next u ∧
      SameDelivery (s.outcap i) s.dstAddr c.toNat t u := by
  cases i with
  | cbcenc =>
    rw [State.admits_encrypt _ (.inl rfl)] at hs hc
    exact ⟨_, _, rfl, rfl, encryptCommand_sameDelivery (fun m => cbcEncrypt_length m _ _) hs hc⟩
  | ecbenc =>
    rw [State.admits_encrypt _ (.inr rfl)] at hs hc
    exact ⟨_, _, rfl, rfl, encryptCommand_sameDelivery (fun m => ecbEncrypt_length m _) hs hc⟩
  | cbcdec =>
    rw [State.admits_decrypt _ (.inl rfl)] at hs hc
    exact ⟨_, _, rfl, rfl,
      decryptCommand_sameDelivery (fun m => cbcDecryptRaw_length _ (bytes16_length _)) hs hc⟩
  | ecbdec =>
    rw [State.admits_decrypt _ (.inr rfl)] at hs hc
    exact ⟨_, _, rfl, rfl, decryptCommand_sameDelivery (fun m => ecbDecryptRaw_length _) hs hc⟩
  | hash =>
    rw [State.admits_hash] at hs hc
    refine ⟨_, _, exec_hash_admitted hs, exec_hash_admitted hc, ?_⟩
    rw [State.memRead_writeDst]
    exact deliverDigest_sameDelivery _ s c
  | keyexp | encblk | decblk | hinit | hblock => simp [rangeCommands] at hi

/-- Settles O21: the delivery does not depend on `DST` at all, and in place `DST` is `SRC`. -/
theorem inPlaceMatchesFreshBuffer : Obligations.InPlaceMatchesFreshBuffer := by
  intro s c i hi hdst hs hc
  have hsrc : s.dstAddr = s.srcAddr := congrArg BitVec.toNat hdst
  rw [← hsrc]
  exact exec_sameDelivery hi hs hc

end Sys2Proof.Machine
end

section
/-! PROOFS. The encoding: which words select a command (R90 to R92), and the illegal ones (R93). -/

namespace Sys2Proof

/-! ### The opcode map -/

/-- R91. Each row of the table pairs a command with its opcode. -/
theorem commandTable_opcode : ∀ row ∈ commandTable, row.1 = opcode row.2 := by decide

/-- R91. The opcodes of the table cover 0x01 to 0x0A. -/
theorem commandTable_covers : ∀ n < 0x0B, 1 ≤ n → ∃ row ∈ commandTable, row.1.toNat = n := by decide

/-- R91. An opcode selects the command it stands for, and no other byte selects it. -/
theorem commandOf_eq_some_iff (op : Byte) (i : Instr) : commandOf op = some i ↔ op = opcode i := by
  constructor
  · intro h
    obtain ⟨row, hfind, rfl⟩ := Option.map_eq_some_iff.1 h
    have hop : row.1 = op := by simpa using List.find?_some hfind
    rw [← hop]
    exact commandTable_opcode row (List.mem_of_find?_eq_some hfind)
  · rintro rfl
    cases i <;> rfl

/-- R91. Every opcode is 0x01 to 0x0A. -/
theorem opcode_range (i : Instr) : 1 ≤ (opcode i).toNat ∧ (opcode i).toNat ≤ 10 := by
  cases i <;> decide

/-- R91. Every number from 1 to 10 is an opcode. -/
theorem exists_opcode {n : Nat} (h1 : 1 ≤ n) (h10 : n ≤ 10) : ∃ i, (opcode i).toNat = n := by
  obtain ⟨row, hrow, hn⟩ := commandTable_covers n (by omega) h1
  exact ⟨row.2, commandTable_opcode row hrow ▸ hn⟩

/-! ### The two fields of a word -/

/-- R90. The fields `zero` and `op` make up the whole word. -/
theorem zeroField_append_opField (w : Word) : zeroField w ++ opField w = w :=
  (BitVec.extractLsb'_append_extractLsb'_eq_extractLsb' rfl).trans BitVec.extractLsb'_eq_self

/-- R90, R91. Every command word has the fields the map gives it. -/
theorem encodedFields (i : Instr) : Laws.EncodedFields.Statement i := by
  cases i with
  | keyexp => exact Laws.EncodedFields.keyexp
  | encblk => exact Laws.EncodedFields.encblk
  | decblk => exact Laws.EncodedFields.decblk
  | cbcenc => exact Laws.EncodedFields.cbcenc
  | cbcdec => exact Laws.EncodedFields.cbcdec
  | ecbenc => exact Laws.EncodedFields.ecbenc
  | ecbdec => exact Laws.EncodedFields.ecbdec
  | hinit => exact Laws.EncodedFields.hinit
  | hblock => exact Laws.EncodedFields.hblock
  | hash => exact Laws.EncodedFields.hash

@[simp] theorem zeroField_encode (i : Instr) : zeroField (encode i) = 0 := (encodedFields i).1

@[simp] theorem opField_encode (i : Instr) : opField (encode i) = opcode i := (encodedFields i).2.1

@[simp] theorem encode_toNat (i : Instr) : (encode i).toNat = (opcode i).toNat := (encodedFields i).2.2

/-- R90. A word is the word of `i` exactly when its two fields are. -/
theorem eq_encode_iff (w : Word) (i : Instr) : w = encode i ↔ zeroField w = 0 ∧ opField w = opcode i := by
  constructor
  · rintro rfl
    exact ⟨zeroField_encode i, opField_encode i⟩
  · rintro ⟨hzero, hop⟩
    rw [← zeroField_append_opField w, hzero, hop, encode]

/-! ### Decoding -/

/-- R92, R93. Decoding succeeds when field `zero` is 0 and the map has the opcode. -/
theorem decode_eq_ok_iff_fields (w : Word) (i : Instr) :
    decode w = .ok i ↔ zeroField w = 0 ∧ commandOf (opField w) = some i := by
  unfold decode
  by_cases hzero : zeroField w = 0#24
  · cases hop : commandOf (opField w) <;> simp [hzero]
  · simp [hzero]

/-- R92. Decoding and encoding agree. -/
theorem decode_eq_ok_iff (w : Word) (i : Instr) : decode w = .ok i ↔ w = encode i := by
  rw [decode_eq_ok_iff_fields, commandOf_eq_some_iff, eq_encode_iff]

/-- R91, R92. The command words are the numbers 1 to 10. -/
theorem exists_eq_encode_iff (w : Word) : (∃ i, w = encode i) ↔ 1 ≤ w.toNat ∧ w.toNat ≤ 10 := by
  constructor
  · rintro ⟨i, rfl⟩
    rw [encode_toNat]
    exact opcode_range i
  · rintro ⟨h1, h10⟩
    obtain ⟨i, hi⟩ := exists_opcode h1 h10
    exact ⟨i, BitVec.eq_of_toNat_eq (by rw [encode_toNat, hi])⟩

/-- R93. A word with a bit of 31:8 set, or whose opcode is 0x00 or from 0x0B, selects no command. -/
theorem decode_ne_ok_of_illegal {w : Word}
    (h : zeroField w ≠ 0 ∨ opField w = 0x00#8 ∨ 0x0B ≤ (opField w).toNat) (i : Instr) :
    decode w ≠ .ok i := by
  intro hdecode
  obtain ⟨hzero, hop⟩ := (eq_encode_iff w i).1 ((decode_eq_ok_iff w i).1 hdecode)
  have hrange := opcode_range i
  rw [← hop] at hrange
  rcases h with hbits | hnull | hlarge
  · exact hbits hzero
  · simp [hnull] at hrange
  · omega

/-- Settles O32: a word selects `i` exactly when its two fields are those of `i`, which make up the word
of `i`; and the words of the ten commands are their opcodes, 1 to 10. -/
theorem decodeSelectsExactWords : Obligations.DecodeSelectsExactWords := by
  refine ⟨decode_eq_ok_iff, fun w => ?_⟩
  simp only [decode_eq_ok_iff]
  exact exists_eq_encode_iff w

end Sys2Proof

namespace Sys2Proof.Machine

/-! ### The command write -/

/-- R241. A write at the offset of a location writes that location. -/
theorem hostWr_offset (r : Reg) (d : Word) (s : State) : hostWr r.offset d s = writeReg r d s := by
  rw [hostWr, Reg.atOffset_offset]

/-- R90. A pending write to `CMD` runs its word on the state whose list has lost it. -/
theorem step_wr_cmd {s : State} {w : Word} {rest : List HostStep}
    (h : s.pending = .bus (.wr 0x000 w) :: rest) : step s = commandWord w (s.withPending rest) :=
  (step_bus h).trans (hostWr_offset .cmd w _)

/-- R93, R261. A word that selects no command ends with `ERR_ILLEGAL`. -/
theorem commandWord_illegal {w : Word} (h : ∀ i, decode w ≠ .ok i) (s : State) :
    commandWord w s = .next (s.cmdError .illegal) := by
  rcases commandWord_cases w s with ⟨i, hi, -⟩ | ⟨-, -, hrun⟩
  · exact absurd hi (h i)
  · exact hrun

/-- Settles O34: no command has such a word, so the step is the error exit with `ERR_ILLEGAL` on the state
past the write. -/
theorem illegalWordIsReported : Obligations.IllegalWordIsReported := by
  intro s w rest hpending hillegal
  rw [step_wr_cmd hpending, commandWord_illegal (decode_ne_ok_of_illegal hillegal)]
  rfl

end Sys2Proof.Machine
end

section
/-! PROOFS. The primitives: rotation (R120), words as big-endian bytes (R121, R122), blocks as four words
(R131), and the substitution of a word's bytes (R124). -/

namespace Sys2Proof.Machine

/-! ### Rotation -/

/-- Settles O6: the bit either stays below 32, and moves up by `n`, or wraps, and moves down by `32 - n`. -/
theorem rotateMovesBits : Obligations.RotateMovesBits := by
  intro x n i hn hi
  rw [rotl, BitVec.getLsbD_rotateLeft_of_le (by omega)]
  by_cases hwrap : i + n < 32
  · have hge : ¬ i + n < n := by omega
    simp [Nat.mod_eq_of_lt hwrap, hwrap, hge]
  · have hmod : (i + n) % 32 = i + n - 32 := by omega
    have hlt : i + n - 32 < n := by omega
    have hback : 32 - n + (i + n - 32) = i := by omega
    simp [hmod, hlt, hback]

/-! ### A word and its four bytes -/

/-- Appending a byte shifts the value before it up by eight bits. -/
theorem toNat_append_byte {w : Nat} (x : BitVec w) (b : Byte) :
    (x ++ b).toNat = x.toNat * 2 ^ 8 + b.toNat := by
  rw [BitVec.toNat_append, ← Nat.shiftLeft_add_eq_or_of_lt b.isLt, Nat.shiftLeft_eq]

/-- R121. The value of a packed word is big-endian. -/
theorem pack32_toNat (b0 b1 b2 b3 : Byte) : (pack32 b0 b1 b2 b3).toNat =
    b0.toNat * 2 ^ 24 + b1.toNat * 2 ^ 16 + b2.toNat * 2 ^ 8 + b3.toNat := by
  rw [pack32, toNat_append_byte, toNat_append_byte, toNat_append_byte]
  omega

@[simp] theorem pack32_extract_0 (b0 b1 b2 b3 : Byte) : (pack32 b0 b1 b2 b3).extractLsb' 0 8 = b3 :=
  BitVec.extractLsb'_append_eq_right

@[simp] theorem pack32_extract_8 (b0 b1 b2 b3 : Byte) : (pack32 b0 b1 b2 b3).extractLsb' 8 8 = b2 :=
  (BitVec.extractLsb'_append_eq_of_le (by decide)).trans BitVec.extractLsb'_append_eq_right

@[simp] theorem pack32_extract_16 (b0 b1 b2 b3 : Byte) : (pack32 b0 b1 b2 b3).extractLsb' 16 8 = b1 :=
  (BitVec.extractLsb'_append_eq_of_le (by decide)).trans <|
    (BitVec.extractLsb'_append_eq_of_le (by decide)).trans BitVec.extractLsb'_append_eq_right

@[simp] theorem pack32_extract_24 (b0 b1 b2 b3 : Byte) : (pack32 b0 b1 b2 b3).extractLsb' 24 8 = b0 :=
  (BitVec.extractLsb'_append_eq_of_le (by decide)).trans <|
    (BitVec.extractLsb'_append_eq_of_le (by decide)).trans BitVec.extractLsb'_append_eq_left

/-- R122. Unpacking a packed word gives its bytes. -/
@[simp] theorem unpack32_pack32 (b0 b1 b2 b3 : Byte) : unpack32 (pack32 b0 b1 b2 b3) = [b0, b1, b2, b3] := by
  simp [unpack32]

/-- R122. Packing the bytes of a word gives the word. -/
@[simp] theorem pack32_extract (w : Word) :
    pack32 (w.extractLsb' 24 8) (w.extractLsb' 16 8) (w.extractLsb' 8 8) (w.extractLsb' 0 8) = w := by
  rw [pack32, BitVec.extractLsb'_append_extractLsb'_eq_extractLsb' (show 24 = 16 + 8 from rfl),
    BitVec.extractLsb'_append_extractLsb'_eq_extractLsb' (show 16 = 8 + 8 from rfl),
    BitVec.extractLsb'_append_extractLsb'_eq_extractLsb' (show 8 = 0 + 8 from rfl)]
  exact BitVec.extractLsb'_eq_self

/-- Settles O7, by the value of `pack32` and the two inverse laws. -/
theorem packAndUnpackAreInverse : Obligations.PackAndUnpackAreInverse :=
  ⟨fun b0 b1 b2 b3 => ⟨pack32_toNat b0 b1 b2 b3, unpack32_pack32 b0 b1 b2 b3⟩,
    fun w => ⟨_, _, _, _, rfl, pack32_extract w⟩⟩

/-- Settles O9: `tau` packs the four substituted bytes, and packing leaves each byte where it stands. -/
theorem tauSubstitutesEachByte : Obligations.TauSubstitutesEachByte := by
  intro x k
  match k with
  | 0 => exact pack32_extract_0 ..
  | 1 => exact pack32_extract_8 ..
  | 2 => exact pack32_extract_16 ..
  | 3 => exact pack32_extract_24 ..

/-! ### Byte sequences and their words -/

@[simp] theorem unpackWords_nil : unpackWords [] = [] := rfl

@[simp] theorem unpackWords_cons (w : Word) (ws : List Word) :
    unpackWords (w :: ws) = unpack32 w ++ unpackWords ws := rfl

/-- Packing reads the bytes of the first word first. -/
@[simp] theorem packWords_unpack32_append (w : Word) (b : Bytes) :
    packWords (unpack32 w ++ b) = w :: packWords b := by
  simp [unpack32, packWords]

/-- Packing the bytes of a list of words gives the words. -/
@[simp] theorem packWords_unpackWords (ws : List Word) : packWords (unpackWords ws) = ws := by
  induction ws with
  | nil => rfl
  | cons w ws ih => rw [unpackWords_cons, packWords_unpack32_append, ih]

/-- The last case of `packWords`: fewer than four bytes are left. -/
theorem length_lt_four {b : Bytes} (h : ∀ b0 b1 b2 b3 rest, b = b0 :: b1 :: b2 :: b3 :: rest → False) :
    b.length < 4 := by
  match b with
  | [] | [_] | [_, _] | [_, _, _] => simp
  | _ :: _ :: _ :: _ :: _ => exact (h _ _ _ _ _ rfl).elim

/-- Every four bytes make one word. -/
theorem packWords_length (b : Bytes) : (packWords b).length = b.length / 4 := by
  induction b using packWords.induct with
  | case1 b0 b1 b2 b3 rest ih =>
    simp only [packWords, List.length_cons, ih]
    omega
  | case2 b hshort =>
    rw [packWords.eq_2 b hshort, List.length_nil, Nat.div_eq_of_lt (length_lt_four hshort)]

/-- Unpacking the words of a whole number of words' bytes gives the bytes. -/
theorem unpackWords_packWords {b : Bytes} (h : 4 ∣ b.length) : unpackWords (packWords b) = b := by
  induction b using packWords.induct with
  | case1 b0 b1 b2 b3 rest ih =>
    have hrest : 4 ∣ rest.length := by simpa using h
    simp [packWords, ih hrest]
  | case2 b hshort =>
    have hlt := length_lt_four hshort
    have hnil : b = [] := List.eq_nil_of_length_eq_zero (by omega)
    rw [hnil]
    rfl

/-- R131, R205. Word `k` of a byte sequence is made of its bytes `4 k` to `4 k + 3`. -/
theorem packWords_getD {b : Bytes} {k : Nat} (h : 4 * k + 3 < b.length) : (packWords b).getD k 0 =
    pack32 (b.getD (4 * k) 0) (b.getD (4 * k + 1) 0) (b.getD (4 * k + 2) 0) (b.getD (4 * k + 3) 0) := by
  induction b using packWords.induct generalizing k with
  | case1 b0 b1 b2 b3 rest ih =>
    cases k with
    | zero => rfl
    | succ k =>
      have hrest : 4 * k + 3 < rest.length := by
        simp only [List.length_cons] at h
        omega
      exact ih hrest
  | case2 b hshort =>
    have hlt := length_lt_four hshort
    omega

/-! ### A block and its four words -/

/-- R131. Word `k` of `words4` is word `k` of the block. -/
theorem words4_getElem (b : Bytes) (k : Fin 4) : (words4 b)[k] = (packWords b).getD k 0 := by
  match k with
  | 0 | 1 | 2 | 3 => rfl

/-- The words of a block of 16 bytes are all its words. -/
theorem words4_toList {b : Bytes} (h : b.length = 16) : (words4 b).toList = packWords b := by
  have hlen : (packWords b).length = 4 := by rw [packWords_length, h]
  obtain ⟨w0, w1, w2, w3, hw⟩ := List.length_eq_four.1 hlen
  simp [words4, hw]

/-- R131. Unpacking the words of a block gives the block. -/
theorem bytes16_words4 {b : Bytes} (h : b.length = 16) : bytes16 (words4 b) = b := by
  rw [bytes16, words4_toList h, unpackWords_packWords ⟨4, h⟩]

/-- R131. Packing the bytes of four words gives the words. -/
@[simp] theorem words4_bytes16 (w : Vector Word 4) : words4 (bytes16 w) = w := by
  rw [← Vector.toList_inj, words4_toList (bytes16_length w), bytes16, packWords_unpackWords]

/-- R131. The bytes of four words are those of each word in turn. -/
theorem bytes16_eq_append (w : Vector Word 4) :
    bytes16 w = unpack32 w[0] ++ unpack32 w[1] ++ unpack32 w[2] ++ unpack32 w[3] := by
  obtain ⟨⟨words⟩, hlen⟩ := w
  obtain ⟨w0, w1, w2, w3, rfl⟩ := List.length_eq_four.1 hlen
  simp [bytes16]

/-- Settles O8, by the two inverse laws and the words and bytes by index. -/
theorem blockWordsAndBytesAreInverse : Obligations.BlockWordsAndBytesAreInverse := by
  refine ⟨fun b hb => ⟨bytes16_words4 hb, fun k => ?_⟩, fun w => ⟨words4_bytes16 w, bytes16_eq_append w⟩⟩
  rw [words4_getElem, packWords_getD (by omega)]

end Sys2Proof.Machine
end

section
/-! PROOFS. The key schedule and the block transform, loops over a window of four words, held to the
recurrences of R153 and R154; the commands KEYEXP, ENCBLK and DECBLK (R150 to R152). -/

namespace Sys2Proof.Machine

/-! ### The recurrence that R153 and R154 share -/

/-- Each word of `X` from `X 4` on comes from the four before it, mixed by `T` with one word of `k`. -/
def RoundRecurrence (T : Word → Word) (k : List Word) (X : Nat → Word) : Prop :=
  ∀ i, X (i + 4) = X i ^^^ T (X (i + 1) ^^^ X (i + 2) ^^^ X (i + 3) ^^^ k.getD i 0)

/-- The words of the recurrence that starts with the four words of `x`. -/
def roundWord (T : Word → Word) (k : List Word) (x : Vector Word 4) : Nat → Word
  | 0 => x[0]
  | 1 => x[1]
  | 2 => x[2]
  | 3 => x[3]
  | i + 4 => roundWord T k x i ^^^
      T (roundWord T k x (i + 1) ^^^ roundWord T k x (i + 2) ^^^ roundWord T k x (i + 3) ^^^ k.getD i 0)

theorem roundWord_recurrence (T : Word → Word) (k : List Word) (x : Vector Word 4) :
    RoundRecurrence T k (roundWord T k x) :=
  fun _ => rfl

theorem roundWord_start (T : Word → Word) (k : List Word) (x : Vector Word 4) (j : Fin 4) :
    roundWord T k x j = x[j] := by
  match j with
  | 0 | 1 | 2 | 3 => rfl

/-- The first new word takes the first word of `k`. -/
theorem RoundRecurrence.first {T : Word → Word} {c : Word} {k : List Word} {X : Nat → Word}
    (h : RoundRecurrence T (c :: k) X) : X 4 = X 0 ^^^ T (X 1 ^^^ X 2 ^^^ X 3 ^^^ c) :=
  h 0

/-- Past the first word, the recurrence goes on with the rest of `k`. -/
theorem RoundRecurrence.shift {T : Word → Word} {c : Word} {k : List Word} {X : Nat → Word}
    (h : RoundRecurrence T (c :: k) X) : RoundRecurrence T k fun i => X (i + 1) :=
  fun i => h (i + 1)

/-! ### The two loops follow it -/

/-- R153. The schedule loop yields the words of the recurrence from `X 4` on. -/
theorem keyRounds_getD {ck : List Word} {X : Nat → Word} (h : RoundRecurrence Tkey ck X) {i : Nat}
    (hi : i < ck.length) : (keyRounds ck (X 0) (X 1) (X 2) (X 3)).getD i 0 = X (i + 4) := by
  induction ck generalizing X i with
  | nil => simp at hi
  | cons c ck ih =>
    rw [keyRounds, ← h.first]
    cases i with
    | zero => rfl
    | succ i => exact ih h.shift (Nat.lt_of_succ_lt_succ hi)

/-- R154. The transform loop ends with the last four words of the recurrence, in reverse order. -/
theorem cryptRounds_eq {k : List Word} {X : Nat → Word} (h : RoundRecurrence Trnd k X) :
    cryptRounds k (X 0) (X 1) (X 2) (X 3) =
      #v[X (k.length + 3), X (k.length + 2), X (k.length + 1), X k.length] := by
  induction k generalizing X with
  | nil => rfl
  | cons r k ih =>
    rw [cryptRounds, ← h.first]
    exact ih h.shift

/-! ### The pure functions -/

/-- R153. The four words the schedule starts with: the key mixed with `FK`. -/
def whitenedKey (key : Vector Word 4) : Vector Word 4 := Vector.zipWith (· ^^^ ·) key FK

theorem keySchedule_getElem (key : Vector Word 4) (i : Fin 32) :
    (keySchedule key)[i] = roundWord Tkey CK (whitenedKey key) (i + 4) := by
  have hi : i < CK.length := i.isLt
  have hloop := keyRounds_getD (roundWord_recurrence Tkey CK (whitenedKey key)) hi
  rw [← hloop, List.getD_eq_getElem _ _ (by rwa [keyRounds_length])]
  simp [keySchedule, roundWord, whitenedKey]

/-- R153. `keySchedule` is the schedule of the spec. -/
theorem keySchedule_spec (key : Vector Word 4) : ScheduleSpec key (keySchedule key) := by
  refine ⟨roundWord Tkey CK (whitenedKey key), fun j => ?_,
    fun i => roundWord_recurrence Tkey CK (whitenedKey key) i, keySchedule_getElem key⟩
  rw [roundWord_start]
  simp [whitenedKey]

/-- R154. `cryptWords` with 32 round keys is the transform of the spec. -/
theorem cryptWords_spec (x : Vector Word 4) {k : List Word} (hk : k.length = 32) :
    CryptSpec x (fun i => k.getD i 0) (cryptWords x k) := by
  refine ⟨roundWord Trnd k x, roundWord_start Trnd k x, fun i => roundWord_recurrence Trnd k x i, ?_⟩
  have hloop := cryptRounds_eq (roundWord_recurrence Trnd k x)
  rw [hk] at hloop
  exact hloop

/-- R151. Encryption takes round key `i` in round `i`. -/
theorem encryptWords_spec (x : Vector Word 4) (rk : Vector Word 32) :
    CryptSpec x (fun i => rk[i]) (encryptWords x rk) := by
  have hkeys : ∀ i : Fin 32, rk.toList.getD i 0 = rk[i] := fun i => by simp
  simpa only [hkeys, encryptWords] using cryptWords_spec x rk.length_toList

/-- R152. Decryption takes round key `31 - i` in round `i`. -/
theorem decryptWords_spec (x : Vector Word 4) (rk : Vector Word 32) :
    CryptSpec x (fun i => rk[31 - i]) (decryptWords x rk) := by
  have hkeys : ∀ i : Fin 32, rk.toList.reverse.getD i 0 = rk[31 - i] := fun i => by
    have hval : ((31 - i : Fin 32) : Nat) = 31 - i := Fin.sub_val_of_le (Fin.le_last i)
    simp [hval]
  simpa only [hkeys, decryptWords] using cryptWords_spec x (List.length_reverse.trans rk.length_toList)

/-! ### The commands -/

/-- Settles O1: the final state is `State.setSchedule` with `keySchedule`, ended as done. -/
theorem keyexpExpandsKey : Obligations.KeyexpExpandsKey :=
  ⟨(decode_eq_ok_iff _ _).2 rfl, fun s => ⟨_, rfl, keySchedule_spec s.key, rfl, fun _ => rfl⟩⟩

/-- What R151 and R152 say of a block command `i` that takes the round keys in the order `k`. -/
def TransformsBlock (i : Instr) (k : Vector Word 32 → Fin 32 → Word) : Prop :=
  ∀ s : State,
    (s.rkv = true → ∃ t, exec i s = .next t ∧ CryptSpec s.blk (k s.rk) t.blk ∧
      t = { s with blk := t.blk, err := .ok, padbad := false, outlen := 0 } ∧ SameBuf s t) ∧
    (s.rkv = false → exec i s = .next (s.FailedWith .noKey))

/-- A command of the shape `blockCommand` does so when its transform is `crypt_words` in that order. -/
theorem blockCommand_transformsBlock {i : Instr} {f : Vector Word 4 → Vector Word 32 → Vector Word 4}
    {k : Vector Word 32 → Fin 32 → Word} (hexec : ∀ s, exec i s = .next (blockCommand f s))
    (hf : ∀ x rk, CryptSpec x (k rk) (f x rk)) : TransformsBlock i k := by
  intro s
  rw [hexec]
  rcases blockCommand_cases f s with ⟨hkey, hdone⟩ | ⟨hkey, hfail⟩
  · rw [hdone]
    exact ⟨fun _ => ⟨_, rfl, hf s.blk s.rk, rfl, fun _ => rfl⟩, fun hno => by simp [hkey] at hno⟩
  · rw [hfail, ← State.failedWith_eq]
    exact ⟨fun hyes => by simp [hkey] at hyes, fun _ => rfl⟩

/-- Settles O2, by the shape of the block commands and the order in which `encryptWords` takes the keys. -/
theorem encblkTransformsBlock : Obligations.EncblkTransformsBlock :=
  ⟨(decode_eq_ok_iff _ _).2 rfl,
    blockCommand_transformsBlock (k := fun rk i => rk[i]) (fun _ => rfl) encryptWords_spec⟩

/-- Settles O3, by the shape of the block commands and the order in which `decryptWords` takes the keys. -/
theorem decblkWalksKeysInReverse : Obligations.DecblkWalksKeysInReverse :=
  ⟨(decode_eq_ok_iff _ _).2 rfl,
    blockCommand_transformsBlock (k := fun rk i => rk[31 - i]) (fun _ => rfl) decryptWords_spec⟩

end Sys2Proof.Machine
end

section
/-! PROOFS. Padding (R170, R171), the two modes block by block (R172 to R174), and the commands CBCENC,
CBCDEC, ECBENC and ECBDEC (R176 to R179). -/

namespace Sys2Proof.Machine

/-! ### Padding -/

/-- Settles O12: the count is `16 - len(m) mod 16`, which completes the last block. -/
theorem padAppendsCountedBytes : Obligations.PadAppendsCountedBytes := by
  intro m
  have hmod : (pad m).length % 16 = 0 := by rw [pad_length, paddedLength_mod]
  exact ⟨16 - m.length % 16, by omega, by omega, rfl, hmod, by omega⟩

/-- R171. A last byte from 1 to 16 says how many bytes are removed. -/
theorem unpad_of_padByte {d : Bytes} (h1 : 1 ≤ (lastByte d).toNat) (h16 : (lastByte d).toNat ≤ 16) :
    unpad d = (d.take (d.length - (lastByte d).toNat), false) :=
  if_pos (decide_eq_true ⟨h1, h16⟩)

/-- R171. With any other last byte nothing is removed, and that is reported. -/
theorem unpad_of_badByte {d : Bytes} (h : (lastByte d).toNat = 0 ∨ 17 ≤ (lastByte d).toNat) :
    unpad d = (d, true) := by
  have hout : padByteInRange (lastByte d) = false := decide_eq_false (by omega)
  rw [unpad, hout, if_neg Bool.false_ne_true]

@[simp] theorem lastByte_concat (d : Bytes) (p : Byte) : lastByte (d ++ [p]) = p :=
  List.getLastD_concat

/-- The claimed pad length stands at the last index. -/
theorem lastByte_eq_getD (d : Bytes) : lastByte d = d.getD (d.length - 1) 0 := by
  rw [lastByte, List.getLastD_eq_getLast?, List.getLast?_eq_getElem?, List.getD_eq_getElem?_getD]

/-- Settles O13: the last byte of `d ++ [p]` is `p`, and its range decides. -/
theorem unpadReadsLastByteOnly : Obligations.UnpadReadsLastByteOnly := by
  refine ⟨fun d p h1 h16 _ => ?_, fun d p hbad _ => ?_⟩
  · rw [unpad_of_padByte (by rwa [lastByte_concat]) (by rwa [lastByte_concat]), lastByte_concat,
      List.length_append, List.length_singleton]
  · exact unpad_of_badByte (by rwa [lastByte_concat])

/-! ### Blocks -/

/-- R172, R173. The value chained into block `i`: the IV for the first block, the ciphertext block before
it for every other. -/
def chainBlock (iv c : Bytes) (i : Nat) : Bytes := if i = 0 then iv else blockAt 16 c (i - 1)

@[simp] theorem chainBlock_zero (iv c : Bytes) : chainBlock iv c 0 = iv := rfl

@[simp] theorem chainBlock_succ (iv c : Bytes) (i : Nat) : chainBlock iv c (i + 1) = blockAt 16 c i := rfl

/-- Without the first block, every block moves down by one. -/
theorem blockAt_drop (n : Nat) (d : Bytes) (i : Nat) : blockAt n (d.drop n) i = blockAt n d (i + 1) := by
  rw [blockAt, blockAt, List.drop_drop, Nat.mul_succ, Nat.add_comm]

theorem blockAt_append_zero {b : Bytes} (hb : b.length = 16) (d : Bytes) : blockAt 16 (b ++ d) 0 = b :=
  List.take_left' hb

theorem blockAt_append_succ {b : Bytes} (hb : b.length = 16) (d : Bytes) (i : Nat) :
    blockAt 16 (b ++ d) (i + 1) = blockAt 16 d i := by
  rw [← blockAt_drop, List.drop_left' hb]

/-- A block put in front of the ciphertext is what chains into its first block. -/
theorem blockAt_append {b : Bytes} (hb : b.length = 16) (d : Bytes) (i : Nat) :
    blockAt 16 (b ++ d) i = chainBlock b d i := by
  cases i with
  | zero => exact blockAt_append_zero hb d
  | succ i => exact blockAt_append_succ hb d i

/-- R174. `mapBlocks` transforms each block on its own. -/
theorem blockAt_mapBlocks {f : Bytes → Bytes} (hf : ∀ b, (f b).length = 16) {n i : Nat} (hi : i < n)
    (p : Bytes) : blockAt 16 (mapBlocks f n p) i = f (blockAt 16 p i) := by
  induction n generalizing p i with
  | zero => omega
  | succ n ih =>
    rw [mapBlocks]
    cases i with
    | zero => exact blockAt_append_zero (hf _) _
    | succ i => rw [blockAt_append_succ (hf _), ih (by omega), blockAt_drop]

/-- R172. The loop encrypts each block xored with the ciphertext block before it. -/
theorem blockAt_cbcEncryptBlocks (rk : Vector Word 32) {n i : Nat} (hi : i < n) (chain p : Bytes) :
    blockAt 16 (cbcEncryptBlocks rk n chain p) i =
      encryptBlock (xor16 (blockAt 16 p i) (chainBlock chain (cbcEncryptBlocks rk n chain p) i)) rk := by
  induction n generalizing chain p i with
  | zero => omega
  | succ n ih =>
    rw [cbcEncryptBlocks]
    cases i with
    | zero => exact blockAt_append_zero (encryptBlock_length _ _) _
    | succ i =>
      rw [blockAt_append_succ (encryptBlock_length _ _), ih (by omega), blockAt_drop, chainBlock_succ,
        blockAt_append (encryptBlock_length _ _)]

/-- R173. The loop decrypts each block and xors it with the ciphertext block before it. -/
theorem blockAt_cbcDecryptBlocks (rk : Vector Word 32) {n i : Nat} (hi : i < n) {chain c : Bytes}
    (hchain : chain.length = 16) (hc : 16 * n ≤ c.length) :
    blockAt 16 (cbcDecryptBlocks rk n chain c) i =
      xor16 (decryptBlock (blockAt 16 c i) rk) (chainBlock chain c i) := by
  induction n generalizing chain c i with
  | zero => omega
  | succ n ih =>
    have hfirst : (xor16 (decryptBlock (c.take 16) rk) chain).length = 16 := by
      rw [xor16_length, decryptBlock_length, hchain, Nat.min_self]
    have htake : (c.take 16).length = 16 := by rw [List.length_take]; omega
    have hdrop : 16 * n ≤ (c.drop 16).length := by rw [List.length_drop]; omega
    rw [cbcDecryptBlocks]
    cases i with
    | zero => exact blockAt_append_zero hfirst _
    | succ i =>
      rw [blockAt_append_succ hfirst, ih (by omega) htake hdrop, blockAt_drop, chainBlock_succ,
        ← blockAt_append htake, List.take_append_drop]

/-! ### The modes, block by block -/

/-- R172. A ciphertext block of the chained mode encrypts the padded block xored with the block before. -/
theorem blockAt_cbcEncrypt (m : Bytes) (rk : Vector Word 32) (iv : Bytes) {i : Nat}
    (hi : 16 * i < paddedLength m.length) : blockAt 16 (cbcEncrypt m rk iv) i =
      encryptBlock (xor16 (blockAt 16 (pad m) i) (chainBlock iv (cbcEncrypt m rk iv) i)) rk := by
  have hblocks := pad_blocks m
  rw [← pad_length] at hi
  exact blockAt_cbcEncryptBlocks rk (by omega) iv (pad m)

/-- R174. A ciphertext block of the codebook mode encrypts the padded block alone. -/
theorem blockAt_ecbEncrypt (m : Bytes) (rk : Vector Word 32) {i : Nat}
    (hi : 16 * i < paddedLength m.length) :
    blockAt 16 (ecbEncrypt m rk) i = encryptBlock (blockAt 16 (pad m) i) rk := by
  have hblocks := pad_blocks m
  rw [← pad_length] at hi
  exact blockAt_mapBlocks (fun b => encryptBlock_length b rk) (by omega) (pad m)

/-- R173. A block of the chained mode is decrypted and then xored with the ciphertext block before. -/
theorem blockAt_cbcDecryptRaw {c iv : Bytes} (rk : Vector Word 32) (hiv : iv.length = 16)
    (hc : c.length % 16 = 0) {i : Nat} (hi : 16 * i < c.length) : blockAt 16 (cbcDecryptRaw c rk iv) i =
      xor16 (decryptBlock (blockAt 16 c i) rk) (chainBlock iv c i) :=
  blockAt_cbcDecryptBlocks rk (by omega) hiv (by omega)

/-- R174. A block of the codebook mode is decrypted alone. -/
theorem blockAt_ecbDecryptRaw {c : Bytes} (rk : Vector Word 32) (hc : c.length % 16 = 0) {i : Nat}
    (hi : 16 * i < c.length) : blockAt 16 (ecbDecryptRaw c rk) i = decryptBlock (blockAt 16 c i) rk :=
  blockAt_mapBlocks (fun b => decryptBlock_length b rk) (by omega) c

/-! ### Blocks of `BUF` -/

/-- R63. Block `i` of a read is a read of that block. -/
theorem blockAt_memRead (s : State) (a : Nat) {k n i : Nat} (h : k * i + k ≤ n) :
    blockAt k (s.memRead a n) i = s.memRead (a + k * i) k := by
  obtain ⟨r, rfl⟩ := Nat.exists_eq_add_of_le h
  rw [blockAt, Nat.add_assoc, State.memRead_add, List.drop_left' (s.memRead_length _ _), State.memRead_add,
    List.take_left' (s.memRead_length _ _)]

/-- The value chained into block `i` of ciphertext that lies in `BUF`. -/
theorem chainBlock_memRead (s : State) (a : Nat) (iv : Bytes) {n i : Nat} (h : 16 * i ≤ n) :
    chainBlock iv (s.memRead a n) i = if i = 0 then iv else s.memRead (a + 16 * (i - 1)) 16 := by
  cases i with
  | zero => rfl
  | succ i => exact blockAt_memRead s a h

/-! ### A command's output -/

/-- `t` is `s` after a command that succeeds and writes the `outcap` bytes `d` at `DST`: nothing else
changes but `OUTLEN` and the flags. -/
def WritesOutput (s : State) (outcap : Nat) (d : Bytes) (outlen : Nat) (bad : Bool) (t : State) : Prop :=
  t.memRead s.dstAddr outcap = d ∧ SameBufOutside s.dstAddr outcap s t ∧ t.outlen.toNat = outlen ∧
    t = { s with buf := t.buf, outlen := t.outlen, err := .ok, padbad := bad }

/-- One store, and the command done, with a length `OUTLEN` can hold. -/
theorem writesOutput_memWrite (s : State) {d : Bytes} {outcap outlen : Nat} (hd : d.length = outcap)
    (hlen : outlen < 2 ^ 32) (bad : Bool) :
    WritesOutput s outcap d outlen bad ((s.memWrite s.dstAddr d).cmdDone outlen bad) := by
  subst hd
  refine ⟨?_, fun a ha => ?_, ?_, rfl⟩
  · rw [State.memRead_cmdDone, State.memRead_memWrite]
  · rw [State.cmdDone_readByte, State.readByte_memWrite_outside _ ha]
  · rw [State.cmdDone_outlen, BitVec.toNat_ofNat, Nat.mod_eq_of_lt hlen]

/-- R66. The output of an admitted command lies in `BUF`, so `OUTLEN` can hold its length. -/
theorem State.outcap_lt_of_admits {s : State} {i : Instr} (hi : i ∈ rangeCommands)
    (hwf : s.cfg.wf = true) (hadm : s.Admits i) : s.outcap i < 2 ^ 32 := by
  obtain ⟨-, -, ⟨hrange, -⟩, -⟩ := hadm
  obtain ⟨-, hout⟩ := hrange hi
  obtain ⟨-, hsize⟩ := of_decide_eq_true hwf
  omega

/-! ### Encryption commands -/

theorem encryptCommand_refused (f : Bytes → Bytes) {s : State} {code : ErrCode}
    (h : s.encryptError = some code) : encryptCommand f s = s.cmdError code := by
  rw [encryptCommand, h]

section Encrypt

variable {i : Instr} {f : Bytes → Bytes} {s : State}

/-- R175. A command of the shape `encryptCommand` fails at its first failing check. -/
theorem encryptCommand_failsAtFirstCheck (hi : i = .cbcenc ∨ i = .ecbenc)
    (hexec : exec i s = .next (encryptCommand f s)) : FailsAtFirstCheck i s := by
  intro code hcode
  rw [hexec, encryptCommand_refused f ((s.firstFailure_encrypt hi code).1 hcode), State.failedWith_eq]

/-- R176, R178. Admitted, it writes the ciphertext of its input. -/
theorem encryptCommand_writesOutput (hi : i = .cbcenc ∨ i = .ecbenc)
    (hf : ∀ m, (f m).length = paddedLength m.length) (hwf : s.cfg.wf = true) (hadm : s.Admits i) :
    WritesOutput s (paddedLength s.lenBytes) (f (s.memRead s.srcAddr s.lenBytes))
      (paddedLength s.lenBytes) false (encryptCommand f s) := by
  have hlt : paddedLength s.lenBytes < 2 ^ 32 := by
    rcases hi with rfl | rfl
    · exact State.outcap_lt_of_admits (i := .cbcenc) (by decide) hwf hadm
    · exact State.outcap_lt_of_admits (i := .ecbenc) (by decide) hwf hadm
  rw [encryptCommand_admitted f ((s.admits_encrypt hi).1 hadm)]
  exact writesOutput_memWrite s (by rw [hf, State.memRead_length]) hlt false

end Encrypt

/-- A block that begins inside a padded message ends inside it. -/
theorem block_end_le_paddedLength {n i : Nat} (h : 16 * i < paddedLength n) :
    16 * i + 16 ≤ paddedLength n := by
  have hmod := paddedLength_mod n
  omega

/-- Settles O15: the output is `cbcEncrypt` of the input, and the loop chains its own output blocks, which
are those of `BUF` afterwards. -/
theorem cbcencChainsCiphertext : Obligations.CbcencChainsCiphertext := by
  refine ⟨(decode_eq_ok_iff _ _).2 rfl, fun s =>
    ⟨encryptCommand_failsAtFirstCheck (.inl rfl) rfl, fun hwf hadm => ?_⟩⟩
  obtain ⟨hread, hframe, houtlen, hrest⟩ := encryptCommand_writesOutput (.inl rfl)
    (fun m => cbcEncrypt_length m s.rk (bytes16 s.iv)) hwf hadm
  refine ⟨_, rfl, fun i (hi : 16 * i < paddedLength s.lenBytes) => ?_, houtlen, hframe, hrest⟩
  have hblock := blockAt_cbcEncrypt (s.memRead s.srcAddr s.lenBytes) s.rk (bytes16 s.iv) (i := i)
    (by rwa [State.memRead_length])
  rw [← hread, blockAt_memRead _ _ (block_end_le_paddedLength hi), chainBlock_memRead _ _ _ hi.le] at hblock
  exact hblock

/-- Settles O16: the output is `ecbEncrypt` of the input. -/
theorem ecbencEncryptsEachBlock : Obligations.EcbencEncryptsEachBlock := by
  refine ⟨(decode_eq_ok_iff _ _).2 rfl, fun s =>
    ⟨encryptCommand_failsAtFirstCheck (.inr rfl) rfl, fun hwf hadm => ?_⟩⟩
  obtain ⟨hread, hframe, houtlen, hrest⟩ := encryptCommand_writesOutput (.inr rfl)
    (fun m => ecbEncrypt_length m s.rk) hwf hadm
  refine ⟨_, rfl, fun i (hi : 16 * i < paddedLength s.lenBytes) => ?_, houtlen, hframe, hrest⟩
  have hblock := blockAt_ecbEncrypt (s.memRead s.srcAddr s.lenBytes) s.rk (i := i)
    (by rwa [State.memRead_length])
  rw [← hread, blockAt_memRead _ _ (block_end_le_paddedLength hi)] at hblock
  exact hblock

/-! ### Decryption commands -/

theorem decryptCommand_refused (f : Bytes → Bytes) {s : State} {code : ErrCode}
    (h : s.decryptError = some code) : decryptCommand f s = s.cmdError code := by
  rw [decryptCommand, h]

/-- R268. A bad last byte under `STRICT` fails. -/
theorem deliverDecrypted_strict {d m : Bytes} {s : State} (hd : unpad d = (m, true)) (hs : s.strict = true) :
    deliverDecrypted d s = s.cmdError .padding := by
  rw [deliverDecrypted, hd, hs]
  rfl

/-- R177, R268. A good last byte, or a bad one without `STRICT`, succeeds. -/
theorem deliverDecrypted_done {d m : Bytes} {bad : Bool} {s : State} (hd : unpad d = (m, bad))
    (hs : (bad && s.strict) = false) :
    deliverDecrypted d s = (s.memWrite s.dstAddr d).cmdDone m.length bad := by
  rw [deliverDecrypted, hd, hs, if_neg Bool.false_ne_true]

/-- R175. The input of an admitted decryption is whole blocks. -/
theorem State.input_length_mod_of_decryptError {s : State} (h : s.decryptError = none) :
    (s.memRead s.srcAddr s.lenBytes).length % 16 = 0 := by
  rw [State.memRead_length, State.lenBytes_mod_of_decryptError h]

section Decrypt

variable {i : Instr} {f : Bytes → Bytes} {s : State}

/-- R175. A command of the shape `decryptCommand` fails at its first failing check. -/
theorem decryptCommand_failsAtFirstCheck (hi : i = .cbcdec ∨ i = .ecbdec)
    (hexec : exec i s = .next (decryptCommand f s)) : FailsAtFirstCheck i s := by
  intro code hcode
  rw [hexec, decryptCommand_refused f ((s.firstFailure_decrypt hi code).1 hcode), State.failedWith_eq]

/-- R177, R179. A command that ends with `deliverDecrypted` delivers as its last byte and `STRICT` say. -/
theorem deliverDecrypted_delivers {d : Bytes} (hlen : d.length = s.lenBytes)
    (hexec : exec i s = .next (deliverDecrypted d s)) : Delivers i s d := by
  have hlt : s.lenBytes < 2 ^ 32 := s.len.isLt
  have hlast : d.getD (s.lenBytes - 1) 0 = lastByte d := by rw [lastByte_eq_getD, hlen]
  unfold Delivers
  rw [hlast]
  refine ⟨fun ⟨h1, h16⟩ => ⟨_, hexec, ?_⟩, fun hbad hs => ⟨_, hexec, ?_⟩, fun hbad hs => ?_⟩
  · rw [deliverDecrypted_done (unpad_of_padByte h1 h16) rfl, List.length_take_of_le (Nat.sub_le _ _), hlen]
    exact writesOutput_memWrite s hlen (by omega) false
  · rw [deliverDecrypted_done (unpad_of_badByte hbad) hs, hlen]
    exact writesOutput_memWrite s hlen hlt true
  · rw [hexec, deliverDecrypted_strict (unpad_of_badByte hbad) hs, State.failedWith_eq]

/-- R177, R179. Admitted, a command of the shape `decryptCommand` delivers the deciphered input. -/
theorem decryptCommand_delivers (h : s.decryptError = none)
    (hlen : (f (s.memRead s.srcAddr s.lenBytes)).length = s.lenBytes)
    (hexec : exec i s = .next (decryptCommand f s)) :
    Delivers i s (f (s.memRead s.srcAddr s.lenBytes)) :=
  deliverDecrypted_delivers hlen (by rw [hexec, decryptCommand_admitted f h])

end Decrypt

/-- Settles O17: the decrypted bytes are `cbcDecryptRaw` of the input, whose blocks are those of `BUF`
before. -/
theorem cbcdecChainsCiphertext : Obligations.CbcdecChainsCiphertext := by
  refine ⟨(decode_eq_ok_iff _ _).2 rfl, fun s =>
    ⟨decryptCommand_failsAtFirstCheck (.inl rfl) rfl, fun _ hadm => ?_⟩⟩
  have herr := (s.admits_decrypt (.inl rfl)).1 hadm
  have hinput := s.memRead_length s.srcAddr s.lenBytes
  have hmod := State.input_length_mod_of_decryptError herr
  have hlen := (cbcDecryptRaw_length s.rk (bytes16_length s.iv) hmod).trans hinput
  refine ⟨_, hlen, fun i hi => ?_, decryptCommand_delivers herr hlen rfl⟩
  rw [blockAt_cbcDecryptRaw s.rk (bytes16_length s.iv) hmod (by rwa [hinput]),
    blockAt_memRead _ _ (by omega), chainBlock_memRead _ _ _ hi.le]

/-- Settles O18: the decrypted bytes are `ecbDecryptRaw` of the input. -/
theorem ecbdecDecryptsEachBlock : Obligations.EcbdecDecryptsEachBlock := by
  refine ⟨(decode_eq_ok_iff _ _).2 rfl, fun s =>
    ⟨decryptCommand_failsAtFirstCheck (.inr rfl) rfl, fun _ hadm => ?_⟩⟩
  have herr := (s.admits_decrypt (.inr rfl)).1 hadm
  have hinput := s.memRead_length s.srcAddr s.lenBytes
  have hmod := State.input_length_mod_of_decryptError herr
  have hlen := (ecbDecryptRaw_length s.rk hmod).trans hinput
  refine ⟨_, hlen, fun i hi => ?_, decryptCommand_delivers herr hlen rfl⟩
  rw [blockAt_ecbDecryptRaw s.rk hmod (by rwa [hinput]), blockAt_memRead _ _ (by omega)]

end Sys2Proof.Machine
end

section
/-! PROOFS. The hash engine: padding (R200), the compression held to the recurrences of R205 to R209, and
the commands HINIT, HBLOCK, HASH (R210 to R214). -/

namespace Sys2Proof.Machine

/-! ### Padding -/

@[simp] theorem be64_length (v : BitVec 64) : (be64 v).length = 8 := rfl

/-- R200. `be64` writes its value in base 256, the most significant byte first. -/
theorem be64_foldl (v : BitVec 64) : (be64 v).foldl (fun n b => 256 * n + b.toNat) 0 = v.toNat := by
  have hlt := v.isLt
  simp only [be64, List.foldl_cons, List.foldl_nil, BitVec.extractLsb'_toNat, Nat.shiftRight_eq_div_pow]
  omega

/-- R200. The zero bytes fill the last block: there are whole blocks, and at least one. -/
theorem hpad_length_blocks (m : Bytes) : (hpad m).length = 64 * ((m.length + 8) / 64 + 1) := by
  rw [hpad_length, hashZeros]
  omega

theorem hpad_blocks (m : Bytes) : 64 * ((hpad m).length / 64) = (hpad m).length := by
  rw [hpad_length_blocks, Nat.mul_div_cancel_left _ (by decide)]

theorem hpad_eq_append (m : Bytes) : hpad m =
    m ++ 0x80 :: (List.replicate (hashZeros m.length) 0x00 ++ be64 (BitVec.ofNat 64 (8 * m.length))) := by
  simp [hpad]

theorem hpad_take (m : Bytes) : (hpad m).take m.length = m := by
  rw [hpad_eq_append, List.take_left]

theorem hpad_marker (m : Bytes) : (hpad m)[m.length]? = some 0x80 := by
  rw [hpad_eq_append, List.getElem?_append_right le_rfl, Nat.sub_self, List.getElem?_cons_zero]

/-- R200. Between the marker byte and the length there are zeros. -/
theorem hpad_zero {m : Bytes} {j : Nat} (hj : m.length < j) (hend : j + 8 < (hpad m).length) :
    (hpad m)[j]? = some 0x00 := by
  obtain ⟨i, rfl⟩ := Nat.exists_eq_add_of_lt hj
  rw [hpad_length] at hend
  have hi : i < hashZeros m.length := by omega
  rw [hpad_eq_append, Nat.add_assoc, List.getElem?_append_right (Nat.le_add_right _ _),
    Nat.add_sub_cancel_left, List.getElem?_cons_succ,
    List.getElem?_append_left (by rwa [List.length_replicate]), List.getElem?_replicate_of_lt hi]

theorem hpad_drop (m : Bytes) :
    (hpad m).drop ((hpad m).length - 8) = be64 (BitVec.ofNat 64 (8 * m.length)) := by
  rw [hpad_length, Nat.add_sub_cancel, hpad]
  exact List.drop_left' (by simp; omega)

/-- Settles O22, part by part of the padded message. -/
theorem hashPaddingLayout : Obligations.HashPaddingLayout := fun m =>
  ⟨hpad_length_blocks m, hpad_take m, hpad_marker m, fun _ => hpad_zero, by
    rw [hpad_drop, be64_foldl, BitVec.toNat_ofNat]⟩

/-! ### Message expansion -/

/-- R206. Expansion appends words and changes none. -/
theorem exists_extendW_eq_append (n : Nat) (w : List Word) : ∃ r, extendW n w = w ++ r := by
  induction n generalizing w with
  | zero => exact ⟨[], (List.append_nil w).symm⟩
  | succ n ih =>
    obtain ⟨r, hr⟩ := ih (w ++ [nextW w])
    exact ⟨nextW w :: r, by rw [extendW, hr, ← List.append_cons]⟩

theorem extendW_length (n : Nat) (w : List Word) : (extendW n w).length = w.length + n := by
  induction n generalizing w with
  | zero => rfl
  | succ n ih =>
    rw [extendW, ih, List.length_append, List.length_singleton]
    omega

/-- R206. Each new word is `nextW` of the words before it. -/
theorem extendW_getD_new {n j : Nat} {w : List Word} (hj : w.length ≤ j) (hn : j < w.length + n) :
    (extendW n w).getD j 0 = nextW ((extendW n w).take j) := by
  induction n generalizing w with
  | zero => omega
  | succ n ih =>
    rw [extendW]
    rcases hj.eq_or_lt with rfl | hlt
    · obtain ⟨r, hr⟩ := exists_extendW_eq_append n (w ++ [nextW w])
      rw [hr, List.append_assoc, List.take_left, List.getD_append_right _ _ _ _ le_rfl, Nat.sub_self]
      rfl
    · exact ih (by simpa using hlt) (by simp; omega)

/-- R206. `nextW` of the first `j` words, by their indices. -/
theorem nextW_take {w : List Word} {j : Nat} (h16 : 16 ≤ j) (hj : j ≤ w.length) :
    nextW (w.take j) = P1 (w.getD (j - 16) 0 ^^^ w.getD (j - 9) 0 ^^^ rotl (w.getD (j - 3) 0) 15) ^^^
      rotl (w.getD (j - 13) 0) 7 ^^^ w.getD (j - 6) 0 := by
  have hget : ∀ i < j, (w.take j).getD i 0 = w.getD i 0 := fun i hi => by
    rw [List.getD_eq_getElem?_getD, List.getElem?_take_of_lt hi, ← List.getD_eq_getElem?_getD]
  simp (disch := omega) only [nextW, List.length_take_of_le hj, hget]

/-- R205. The first 16 words are those of the block. -/
theorem expandW_getD_block {b : Bytes} (hb : b.length = 64) {j : Nat} (hj : j < 16) : (expandW b).getD j 0 =
    pack32 (b.getD (4 * j) 0) (b.getD (4 * j + 1) 0) (b.getD (4 * j + 2) 0) (b.getD (4 * j + 3) 0) := by
  obtain ⟨r, hr⟩ := exists_extendW_eq_append 52 (packWords b)
  rw [expandW, hr, List.getD_append _ _ _ _ (by rw [packWords_length]; omega), packWords_getD (by omega)]

/-- R206. The other 52 words follow the recurrence. -/
theorem expandW_getD_new {b : Bytes} (hb : b.length = 64) {j : Nat} (h16 : 16 ≤ j) (hj : j ≤ 67) :
    (expandW b).getD j 0 =
      P1 ((expandW b).getD (j - 16) 0 ^^^ (expandW b).getD (j - 9) 0 ^^^
        rotl ((expandW b).getD (j - 3) 0) 15) ^^^
          rotl ((expandW b).getD (j - 13) 0) 7 ^^^ (expandW b).getD (j - 6) 0 := by
  have hwords : (packWords b).length = 16 := by rw [packWords_length, hb]
  have hlen : (expandW b).length = 68 := by rw [expandW, extendW_length, hwords]
  rw [← nextW_take h16 (by omega)]
  exact extendW_getD_new (by omega) (by omega)

/-! ### Compression -/

/-- Settles O23: each working word is its formula by definition. -/
theorem hashRoundFormulas : Obligations.HashRoundFormulas := fun _ _ _ _ => rfl

/-- R209. One more round is a round after the others. -/
theorem hashRounds_succ (w : List Word) (n j : Nat) (v : Working) : hashRounds w (n + 1) j v =
    hashRound (j + n) (w.getD (j + n) 0) (expandW1 w (j + n)) (hashRounds w n j v) := by
  induction n generalizing j v with
  | zero => rfl
  | succ n ih =>
    have hindex : j + 1 + n = j + (n + 1) := by omega
    rw [hashRounds, ih, hindex, hashRounds]

/-- R209. `compress` of a block is the compression of the spec. -/
theorem compress_spec (v : Vector Word 8) {b : Bytes} (hb : b.length = 64) :
    CompressSpec v b (compress v b) := by
  refine ⟨fun j => (expandW b).getD j 0, fun j => hashRounds (expandW b) j 0 (.ofState v),
    fun j => expandW_getD_block hb, fun j => expandW_getD_new hb, rfl, fun j _ => ?_, rfl⟩
  simp only [hashRounds_succ, Nat.zero_add, expandW1]

/-! ### Blocks of a message -/

/-- R213. One more block is compressed after the others. -/
theorem compressBlocks_succ (n : Nat) (v : Vector Word 8) (q : Bytes) :
    compressBlocks (n + 1) v q = compress (compressBlocks n v q) (blockAt 64 q n) := by
  induction n generalizing v q with
  | zero => rfl
  | succ n ih => rw [compressBlocks, ih, blockAt_drop, compressBlocks]

theorem blockAt_length {k i : Nat} {d : Bytes} (h : k * i + k ≤ d.length) : (blockAt k d i).length = k := by
  rw [blockAt, List.length_take_of_le (by rw [List.length_drop]; omega)]

/-- R213. The states from `v` on, one for each block of a message of whole blocks. -/
theorem compressBlocks_spec (v : Vector Word 8) {q : Bytes} (hq : 64 * (q.length / 64) = q.length) {i : Nat}
    (hi : 64 * i < q.length) :
    CompressSpec (compressBlocks i v q) (blockAt 64 q i) (compressBlocks (i + 1) v q) := by
  rw [compressBlocks_succ]
  exact compress_spec _ (blockAt_length (by omega))

/-- R214. Bytes `4 k` to `4 k + 3` of a sequence of words are word `k`. -/
theorem blockAt_unpackWords {ws : List Word} {k : Nat} (hk : k < ws.length) :
    blockAt 4 (unpackWords ws) k = unpack32 ws[k] := by
  induction ws generalizing k with
  | nil => exact absurd hk (Nat.not_lt_zero k)
  | cons w ws ih =>
    rw [unpackWords_cons]
    cases k with
    | zero => exact List.take_left' (unpack32_length w)
    | succ k =>
      rw [← blockAt_drop, List.drop_left' (unpack32_length w)]
      exact ih (Nat.lt_of_succ_lt_succ hk)

theorem blockAt_digestOf (v : Vector Word 8) (k : Fin 8) : blockAt 4 (digestOf v) k = unpack32 v[k] :=
  blockAt_unpackWords (ws := v.toList) (by rw [Vector.length_toList]; exact k.isLt)

/-! ### The commands -/

/-- Settles O24: the final state is `State.setH` with `HIV`, ended as done. -/
theorem hinitLoadsInitialVector : Obligations.HinitLoadsInitialVector :=
  ⟨(decode_eq_ok_iff _ _).2 rfl, fun _ => ⟨_, rfl, rfl, rfl, fun _ => rfl⟩⟩

theorem exec_hblock_admitted {s : State} (h : s.hblockError = none) :
    exec .hblock s = .next ((s.setH (compress s.h (s.memRead s.srcAddr 64))).cmdDone 0 false) := by
  rw [exec, execHblock, h, hashBlockBytes]

theorem exec_hblock_refused {s : State} {code : ErrCode} (h : s.hblockError = some code) :
    exec .hblock s = .next (s.FailedWith code) := by
  rw [exec, execHblock, h, State.failedWith_eq]

/-- Settles O25: the range check is the only one, and `compress` follows the recurrences. -/
theorem hblockCompressesBlock : Obligations.HblockCompressesBlock := by
  refine ⟨(decode_eq_ok_iff _ _).2 rfl, fun s => ⟨fun hin => ?_, fun hout => ?_⟩⟩
  · exact ⟨_, exec_hblock_admitted (State.hblockError_eq_none.2 hin),
      compress_spec s.h (s.memRead_length _ _), rfl, fun _ => rfl⟩
  · exact exec_hblock_refused (State.hblockError_eq_some hout)

theorem exec_hash_refused {s : State} {code : ErrCode} (h : s.hashError = some code) :
    exec .hash s = .next (s.FailedWith code) := by
  rw [exec, execHash, h, State.failedWith_eq]

/-- R212. The delivered digest is an output of 32 bytes, and its hash state stands in `H`. -/
theorem deliverDigest_writesOutput (v : Vector Word 8) (s : State) :
    WritesOutput (s.setH v) 32 (digestOf v) 32 false (deliverDigest v s) :=
  writesOutput_memWrite (s.setH v) (digestOf_length v) (by decide) false

/-- R212, R214. Each word of `H` stands at its place in the delivered digest. -/
theorem memRead_deliverDigest (v : Vector Word 8) (s : State) (k : Fin 8) :
    (deliverDigest v s).memRead (s.dstAddr + 4 * k) 4 = unpack32 v[k] := by
  obtain ⟨hread, -⟩ := deliverDigest_writesOutput v s
  rw [← blockAt_digestOf, ← hread]
  exact (blockAt_memRead _ _ (by omega)).symm

/-- Settles O26: the states of R213 are those of `compressBlocks` on the padded message. -/
theorem hashDigestsMessage : Obligations.HashDigestsMessage := by
  refine ⟨(decode_eq_ok_iff _ _).2 rfl, fun s =>
    ⟨fun code hcode => exec_hash_refused ((s.firstFailure_hash code).1 hcode), fun hadm => ?_⟩⟩
  obtain ⟨-, hframe, -, -⟩ := deliverDigest_writesOutput (digestState (s.memRead s.srcAddr s.lenBytes)) s
  refine ⟨_, exec_hash_admitted (s.admits_hash.1 hadm),
    ⟨fun i => compressBlocks i HIV (hpad (s.memRead s.srcAddr s.lenBytes)), rfl,
      fun i hi => compressBlocks_spec HIV (hpad_blocks _) hi, rfl⟩,
    memRead_deliverDigest _ s, hframe, rfl⟩

end Sys2Proof.Machine
end

section
/-! PROOFS. The host's access to the register map: WR (R241) and RD (R242). -/

namespace Sys2Proof.Machine

/-! ### The words of the flags -/

/-- Appending `w` bits shifts the value before them up by `w`. -/
theorem toNat_append_eq_mul_add {v w : Nat} (x : BitVec v) (y : BitVec w) :
    (x ++ y).toNat = x.toNat * 2 ^ w + y.toNat := by
  rw [BitVec.toNat_append, ← Nat.shiftLeft_add_eq_or_of_lt y.isLt, Nat.shiftLeft_eq]

/-- R31. The value of `STATUS`: `ERR` from bit 8 on, `PADBAD` in bit 2, `RKV` in bit 1. -/
theorem State.statusWord_toNat (s : State) : s.statusWord.toNat =
    s.err.code.toNat * 2 ^ 8 + s.padbad.toNat * 2 ^ 2 + s.rkv.toNat * 2 ^ 1 := by
  simp only [State.statusWord, toNat_append_eq_mul_add, BitVec.toNat_ofBool, BitVec.ofNat_eq_ofNat,
    BitVec.toNat_ofNat]
  omega

/-- R33. The value of `CTRL` is `STRICT`. -/
theorem State.ctrlWord_toNat (s : State) : s.ctrlWord.toNat = s.strict.toNat := by
  simp only [State.ctrlWord, toNat_append_eq_mul_add, BitVec.toNat_ofBool, BitVec.ofNat_eq_ofNat,
    BitVec.toNat_ofNat]
  omega

/-! ### Accesses that the bus accepts -/

/-- R241. A pending write at the offset of a location writes it, on the state whose list has lost the write. -/
theorem step_wr {s : State} {off : Nat} {d : Word} {rest : List HostStep}
    (hpending : s.pending = .bus (.wr off d) :: rest) (r : Reg) (hoff : off = r.offset) :
    step s = writeReg r d (s.withPending rest) := by
  subst hoff
  exact (step_bus hpending).trans (hostWr_offset r d _)

/-- R242. A read at the offset of a location hands its word to the host. -/
theorem hostRd_offset (r : Reg) (s : State) : hostRd r.offset s = .next (s.respond (.word (s.readReg r))) := by
  rw [hostRd, Reg.atOffset_offset]

/-- The words of the register file do not depend on the host's list. -/
@[simp] theorem State.readReg_withPending (s : State) (p : List HostStep) (r : Reg) :
    (s.withPending p).readReg r = s.readReg r := rfl

/-- R242. A pending read at the offset of a location answers with its word, on the state whose list has lost
the read. -/
theorem step_rd {s : State} {off : Nat} {rest : List HostStep} (hpending : s.pending = .bus (.rd off) :: rest)
    (r : Reg) (hoff : off = r.offset) :
    step s = .next ((s.withPending rest).respond (.word (s.readReg r))) := by
  subst hoff
  rw [step_bus hpending, transact, hostRd_offset, State.readReg_withPending]

/-! ### Accesses that the bus refuses -/

/-- R39, R240. No location stands at a misaligned or reserved offset, or past the register file. -/
theorem Reg.atOffset_noRegister {off : Nat} (h : off % 4 ≠ 0 ∨ 0x100 ≤ off ∨ off ∈ reservedOffsets) :
    ∃ e, Reg.atOffset off = .error e := by
  unfold Reg.atOffset
  by_cases halign : off % 4 ≠ 0
  · exact ⟨_, if_pos halign⟩
  by_cases hrange : off ≥ 0x100
  · exact ⟨_, by rw [if_neg halign, if_pos hrange]⟩
  have hreserved : off ∈ reservedOffsets := (h.resolve_left halign).resolve_left hrange
  exact ⟨_, by rw [if_neg halign, if_neg hrange, if_pos hreserved]⟩

theorem hostWr_error {off : Nat} {e : BusError} (h : Reg.atOffset off = .error e) (d : Word) (s : State) :
    hostWr off d s = .refused (.busError e) := by
  rw [hostWr, h]

theorem hostRd_error {off : Nat} {e : BusError} (h : Reg.atOffset off = .error e) (s : State) :
    hostRd off s = .refused (.busError e) := by
  rw [hostRd, h]

/-- R262. A write to a read-only location is refused. -/
theorem writeReg_readOnly {r : Reg} (h : r.readOnly = true) (d : Word) (s : State) :
    writeReg r d s = .refused (.busError .readOnly) := by
  cases r with
  | status | outlen | rk => rfl
  | _ => exact absurd h Bool.false_ne_true

/-- R262. A write to `STATUS`, `OUTLEN` or at 0x080 and beyond is refused, whether a location stands there or not. -/
theorem hostWr_readOnly {off : Nat} (h : off = 0x004 ∨ off = 0x018 ∨ 0x080 ≤ off) (d : Word) (s : State) :
    ∃ e, hostWr off d s = .refused (.busError e) := by
  cases hreg : Reg.atOffset off with
  | error e => exact ⟨e, hostWr_error hreg d s⟩
  | ok r =>
    have hro : r.readOnly = true := (Reg.readOnly_iff hreg).2 h
    exact ⟨.readOnly, by rw [hostWr, hreg]; exact writeReg_readOnly hro d s⟩

/-! ### The obligations -/

/-- Settles O37: each clause is the write of the location at that offset; the others name no location or a
read-only one. -/
theorem hostWriteFollowsRegisterMap : Obligations.HostWriteFollowsRegisterMap := by
  intro s off d rest hpending
  refine ⟨step_wr hpending .cmd, step_wr hpending .ctrl, step_wr hpending .src, step_wr hpending .dst,
    step_wr hpending .len, fun k => step_wr hpending (.key k), fun k => step_wr hpending (.iv k),
    fun k => step_wr hpending (.blk k), fun k => step_wr hpending (.h k), fun hbad => ?_⟩
  rw [step_bus hpending, transact]
  have hsplit : (off % 4 ≠ 0 ∨ 0x100 ≤ off ∨ off ∈ reservedOffsets) ∨
      (off = 0x004 ∨ off = 0x018 ∨ 0x080 ≤ off) := by
    rw [or_assoc, or_assoc]
    exact hbad
  rcases hsplit with hnone | hro
  · obtain ⟨e, he⟩ := Reg.atOffset_noRegister hnone
    exact ⟨e, hostWr_error he d _⟩
  · exact hostWr_readOnly hro d _

/-- Settles O38: each clause is the read of the location at that offset, with the words of the flags by
their values; the others name no location. -/
theorem hostReadFollowsRegisterMap : Obligations.HostReadFollowsRegisterMap := by
  intro s off rest hpending
  refine ⟨step_rd hpending .cmd, fun hoff => ?status, fun hoff => ?ctrl, step_rd hpending .src,
    step_rd hpending .dst, step_rd hpending .len, step_rd hpending .outlen,
    fun k => step_rd hpending (.key k), fun k => step_rd hpending (.iv k),
    fun k => step_rd hpending (.blk k), fun k => step_rd hpending (.h k),
    fun i => step_rd hpending (.rk i), fun hnone => ?refused⟩
  case status =>
    rw [← s.statusWord_toNat, BitVec.ofNat_toNat, BitVec.setWidth_eq]
    exact step_rd hpending .status hoff
  case ctrl =>
    rw [← s.ctrlWord_toNat, BitVec.ofNat_toNat, BitVec.setWidth_eq]
    exact step_rd hpending .ctrl hoff
  case refused =>
    obtain ⟨e, he⟩ := Reg.atOffset_noRegister hnone
    exact ⟨e, (step_bus hpending).trans (hostRd_error he _)⟩

end Sys2Proof.Machine
end

section
/-! PROOFS. Errors: which check a command fails at (R260 to R269), what a failing command leaves (R266), and
the transactions the bus refuses (R262). -/

namespace Sys2Proof.Machine

/-! ### The checks of a command, as one code -/

/-- The check of ENCBLK and DECBLK, in the form of the other check lists (R263). -/
def State.blockError (s : State) : Option ErrCode := firstError [(!s.rkv, .noKey)]

/-- The code of the first check of a command that does not pass (R175, R269). -/
def State.checkError (s : State) : Instr → Option ErrCode
  | .keyexp | .hinit => none
  | .encblk | .decblk => s.blockError
  | .cbcenc | .ecbenc => s.encryptError
  | .cbcdec | .ecbdec => s.decryptError
  | .hblock => s.hblockError
  | .hash => s.hashError

theorem State.blockError_eq_some_iff {s : State} {c : ErrCode} :
    s.blockError = some c ↔ c = .noKey ∧ s.rkv = false := by
  cases hkv : s.rkv <;> simp [State.blockError, firstError, hkv, eq_comm]

theorem State.blockError_eq_none_iff {s : State} : s.blockError = none ↔ s.rkv = true := by
  cases hkv : s.rkv <;> simp [State.blockError, firstError, hkv]

/-- R263. A command without input or output range can fail at the key check alone. -/
theorem State.firstFailure_of_no_range (s : State) {i : Instr} (hdec : i ∉ decryptCommands)
    (hrange : i ∉ rangeCommands) (hhblock : i ≠ .hblock) (c : ErrCode) :
    s.FirstFailure i c ↔ c = .noKey ∧ ¬ s.KeyOk i := by
  have hl : s.LengthOk i := fun h => absurd h hdec
  have hr : s.RangeOk i := ⟨fun h => absurd h hrange, fun h => absurd h hhblock⟩
  have ho : s.LayoutOk i := fun h => absurd h hrange
  cases c <;> simp [State.FirstFailure, hl, hr, ho]

/-- R211, R265. The check of its input range is the only one of HBLOCK. -/
theorem State.firstFailure_hblock (s : State) (c : ErrCode) :
    s.FirstFailure .hblock c ↔ s.hblockError = some c := by
  have hk : s.KeyOk .hblock := by simp [State.KeyOk, cipherCommands]
  have hl : s.LengthOk .hblock := by simp [State.LengthOk, decryptCommands]
  have hr : s.RangeOk .hblock ↔ s.srcAddr + 64 ≤ s.cfg.bufBytes := by simp [State.RangeOk, rangeCommands]
  have ho : s.LayoutOk .hblock := by simp [State.LayoutOk, rangeCommands]
  by_cases hin : s.srcAddr + 64 ≤ s.cfg.bufBytes
  · rw [State.hblockError_eq_none.2 hin]; cases c <;> simp [State.FirstFailure, hk, hl, hr, ho, hin]
  · rw [State.hblockError_eq_some (Nat.lt_of_not_le hin)]; cases c <;> simp [State.FirstFailure, hk, hl, hr, hin]

/-- R175, R269. `checkError` is the first failure of the spec's checks, so there is at most one. -/
theorem State.firstFailure_iff (s : State) (i : Instr) (c : ErrCode) :
    s.FirstFailure i c ↔ s.checkError i = some c := by
  cases i with
  | keyexp | hinit =>
    exact (s.firstFailure_of_no_range (by decide) (by decide) (by decide) c).trans
      (by simp [State.KeyOk, cipherCommands, State.checkError])
  | encblk | decblk =>
    exact (s.firstFailure_of_no_range (by decide) (by decide) (by decide) c).trans
      (by simp [State.KeyOk, cipherCommands, State.checkError, State.blockError_eq_some_iff])
  | cbcenc => exact s.firstFailure_encrypt (.inl rfl) c
  | ecbenc => exact s.firstFailure_encrypt (.inr rfl) c
  | cbcdec => exact s.firstFailure_decrypt (.inl rfl) c
  | ecbdec => exact s.firstFailure_decrypt (.inr rfl) c
  | hblock => exact s.firstFailure_hblock c
  | hash => exact s.firstFailure_hash c

/-- R175. All checks pass when there is no first failure. -/
theorem State.admits_iff_checkError (s : State) (i : Instr) : s.Admits i ↔ s.checkError i = none := by
  simp only [State.admits_iff, State.firstFailure_iff, Option.eq_none_iff_forall_ne_some, ne_eq]

/-- R260. The checks name only the codes of R263, R264, R265 and R267. -/
theorem State.checkError_code {s : State} {i : Instr} {c : ErrCode} (h : s.checkError i = some c) :
    c ≠ .ok ∧ c ≠ .illegal ∧ c ≠ .padding := by
  rw [← State.firstFailure_iff] at h
  refine ⟨?_, ?_, ?_⟩ <;> rintro rfl <;> exact h

/-! ### What a command leaves -/

theorem blockCommand_refused (f : Vector Word 4 → Vector Word 32 → Vector Word 4) {s : State} {c : ErrCode}
    (h : s.blockError = some c) : blockCommand f s = s.cmdError c := by
  obtain ⟨rfl, hkv⟩ := State.blockError_eq_some_iff.1 h
  rw [blockCommand, hkv, if_neg Bool.false_ne_true]

theorem blockCommand_admitted (f : Vector Word 4 → Vector Word 32 → Vector Word 4) {s : State}
    (h : s.blockError = none) : blockCommand f s = (s.setBlk (f s.blk s.rk)).cmdDone 0 false := by
  rw [blockCommand, if_pos (State.blockError_eq_none_iff.1 h)]

/-- R177, R179, R268. An admitted decryption succeeds, or fails on its padding under `STRICT`. -/
theorem decryptCommand_result (f : Bytes → Bytes) {s : State} (h : s.decryptError = none) :
    (decryptCommand f s).err = .ok ∨ (s.strict = true ∧ decryptCommand f s = s.cmdError .padding) := by
  rw [decryptCommand_admitted f h]
  rcases deliverDecrypted_cases (f (s.memRead s.srcAddr s.lenBytes)) s with ⟨-, hstrict, hrun⟩ | ⟨-, hrun⟩
  · exact .inr ⟨hstrict, hrun⟩
  · exact .inl (by rw [hrun, State.cmdDone_err])

/-- R175, R266. A command whose checks do not all pass takes the error exit with the code of the first. -/
theorem exec_refused {s : State} {i : Instr} {c : ErrCode} (h : s.checkError i = some c) :
    exec i s = .next (s.cmdError c) := by
  cases i with
  | keyexp | hinit => cases h
  | encblk | decblk => exact congrArg _ (blockCommand_refused _ h)
  | cbcenc | ecbenc => exact congrArg _ (encryptCommand_refused _ h)
  | cbcdec | ecbdec => exact congrArg _ (decryptCommand_refused _ h)
  | hblock => rw [exec_hblock_refused h, State.failedWith_eq]
  | hash => rw [exec_hash_refused h, State.failedWith_eq]

/-- R266, R268. A command whose checks all pass succeeds, but for a decryption that fails on its padding. -/
theorem exec_admitted {s t : State} {i : Instr} (h : s.checkError i = none) (hexec : exec i s = .next t) :
    t.err = .ok ∨ (i ∈ decryptCommands ∧ s.strict = true ∧ t = s.cmdError .padding) := by
  cases i with
  | keyexp | hinit => cases hexec; exact .inl rfl
  | encblk | decblk => cases hexec; exact .inl (by rw [blockCommand_admitted _ h, State.cmdDone_err])
  | cbcenc | ecbenc => cases hexec; exact .inl (by rw [encryptCommand_admitted _ h, State.cmdDone_err])
  | cbcdec | ecbdec => cases hexec; exact (decryptCommand_result _ h).imp_right fun hpad => ⟨by decide, hpad⟩
  | hblock => cases (exec_hblock_admitted h).symm.trans hexec; exact .inl rfl
  | hash => cases (exec_hash_admitted h).symm.trans hexec; exact .inl rfl

/-- Everything a command can leave: the error of its first failing check, `ERR_PADDING`, or success. -/
theorem exec_cases {s t : State} {i : Instr} (hexec : exec i s = .next t) :
    (∃ c, s.checkError i = some c ∧ t = s.cmdError c) ∨
    (s.checkError i = none ∧ i ∈ decryptCommands ∧ s.strict = true ∧ t = s.cmdError .padding) ∨
    (s.checkError i = none ∧ t.err = .ok) := by
  cases hcheck : s.checkError i with
  | some c =>
    cases (exec_refused hcheck).symm.trans hexec
    exact .inl ⟨c, rfl, rfl⟩
  | none =>
    rcases exec_admitted hcheck hexec with hok | hpad
    · exact .inr (.inr ⟨rfl, hok⟩)
    · exact .inr (.inl ⟨rfl, hpad⟩)

/-- Settles O19: a failing check leaves its own code, which is none of `OK`, `ERR_ILLEGAL` and `ERR_PADDING`;
without one the command leaves `OK` or, decrypting under `STRICT`, `ERR_PADDING`. -/
theorem errorCodesNameFirstFailure : Obligations.ErrorCodesNameFirstFailure := by
  intro i s t hexec
  simp only [State.firstFailure_iff, State.admits_iff_checkError]
  rcases exec_cases hexec with ⟨c, hcheck, rfl⟩ | ⟨hcheck, hdec, hstrict, rfl⟩ | ⟨hcheck, hok⟩
  · obtain ⟨-, hillegal, hpadding⟩ := State.checkError_code hcheck
    rw [State.cmdError_err, hcheck]
    exact ⟨fun _ _ => Option.some_inj.symm, fun hc => absurd hc hpadding, hillegal⟩
  · rw [State.cmdError_err, hcheck]
    exact ⟨by simp, fun _ => ⟨rfl, hdec, hstrict⟩, by decide⟩
  · rw [hok, hcheck]
    exact ⟨by simp, nofun, nofun⟩

/-! ### A failing command word -/

/-- R266. A command word that leaves an error has taken the error exit, and nothing more. -/
theorem commandWord_eq_cmdError {w : Word} {s t : State} (hrun : commandWord w s = .next t)
    (herr : t.err ≠ .ok) : t = s.cmdError t.err := by
  rcases commandWord_cases w s with ⟨i, -, hexec⟩ | ⟨e, -, hillegal⟩
  · rcases exec_cases (hexec.symm.trans hrun) with ⟨c, -, rfl⟩ | ⟨-, -, -, rfl⟩ | ⟨-, hok⟩
    · rfl
    · rfl
    · exact absurd hok herr
  · cases hillegal.symm.trans hrun
    rfl

/-- Settles O30: the error exit is `State.FailedWith`, through which `BUF` reads unchanged. -/
theorem failureLeavesDataUnchanged : Obligations.FailureLeavesDataUnchanged := by
  intro w s t hrun herr
  have ht : t = s.cmdError t.err := commandWord_eq_cmdError hrun herr
  refine ⟨ht.trans (s.failedWith_eq t.err).symm, fun a => ?_⟩
  rw [ht, State.cmdError_readByte]

/-! ### The transactions the bus refuses -/

/-- R272. A command word always ends in a next state. -/
theorem commandWord_next (w : Word) (s : State) : ∃ u, commandWord w s = .next u := by
  rcases commandWord_cases w s with ⟨i, -, hexec⟩ | ⟨e, -, hillegal⟩
  · rw [hexec]
    exact exec_next i s
  · exact ⟨_, hillegal⟩

/-- R241. A write to a location that is not read-only is accepted. -/
theorem writeReg_next {r : Reg} (h : r.readOnly = false) (d : Word) (s : State) :
    ∃ u, writeReg r d s = .next u := by
  cases r with
  | cmd => exact commandWord_next d s
  | status | outlen | rk => cases h
  | _ => exact ⟨_, rfl⟩

/-- R262. A transaction is refused with the cause that `Transaction.refusal` names, or ends in a next state. -/
theorem transact_cases (t : Transaction) (s : State) :
    (∃ e, t.refusal s.cfg = some e ∧ transact t s = .refused (.busError e)) ∨
    (t.refusal s.cfg = none ∧ ∃ u, transact t s = .next u) := by
  cases t with
  | wr off d =>
    simp only [Transaction.refusal, transact, hostWr]
    cases Reg.atOffset off with
    | error e => exact .inl ⟨e, rfl, rfl⟩
    | ok r =>
      cases hro : r.readOnly with
      | true => exact .inl ⟨.readOnly, if_pos hro, writeReg_readOnly hro d s⟩
      | false => exact .inr ⟨by simp [hro], writeReg_next hro d s⟩
  | rd off =>
    simp only [Transaction.refusal, transact, hostRd]
    cases Reg.atOffset off with
    | error e => exact .inl ⟨e, rfl, rfl⟩
    | ok r => exact .inr ⟨rfl, _, rfl⟩
  | put a v =>
    by_cases hin : a + v.length ≤ s.cfg.bufBytes
    · exact .inr ⟨if_pos hin, _, hostPut_inside hin⟩
    · exact .inl ⟨.outsideBuf, if_neg hin, hostPut_outside (Nat.lt_of_not_le hin)⟩
  | get a n =>
    by_cases hin : a + n ≤ s.cfg.bufBytes
    · exact .inr ⟨if_pos hin, _, hostGet_inside hin⟩
    · exact .inl ⟨.outsideBuf, if_neg hin, hostGet_outside (Nat.lt_of_not_le hin)⟩

theorem transact_refused_iff (t : Transaction) (s : State) (e : BusError) :
    transact t s = .refused (.busError e) ↔ t.refusal s.cfg = some e := by
  rcases transact_cases t s with ⟨e', hcause, hrun⟩ | ⟨hnone, u, hrun⟩
  · simp [hcause, hrun]
  · simp [hnone, hrun]

/-- R262. A step refuses a pending transaction for the cause `Transaction.refusal` names, which reads nothing of
the state but the size of `BUF`. -/
theorem step_refused_iff {s : State} {t : Transaction} {rest : List HostStep}
    (hpending : s.pending = .bus t :: rest) (e : BusError) :
    step s = .refused (.busError e) ↔ t.refusal s.cfg = some e := by
  rw [step_bus hpending, transact_refused_iff, State.withPending_cfg]

/-- R39, R240. The offsets that hold no location. -/
theorem Reg.atOffset_error_iff (off : Nat) : (∃ e, Reg.atOffset off = .error e) ↔
    off % 4 ≠ 0 ∨ 0x100 ≤ off ∨ off ∈ reservedOffsets := by
  refine ⟨fun ⟨e, he⟩ => ?_, Reg.atOffset_noRegister⟩
  by_cases hlt : off < 0x100
  · exact (Reg.atOffset_error hlt he).imp_right .inr
  · exact .inr (.inl (Nat.le_of_not_lt hlt))

/-- R240, R262. The reads the bus refuses. -/
theorem Transaction.refusal_rd_iff (cfg : Config) (off : Nat) :
    (∃ e, (Transaction.rd off).refusal cfg = some e) ↔
      off % 4 ≠ 0 ∨ 0x100 ≤ off ∨ off ∈ reservedOffsets := by
  rw [← Reg.atOffset_error_iff, Transaction.refusal]
  cases Reg.atOffset off <;> simp

/-- R240, R262. The writes the bus refuses: those without a location, and those to a read-only one. -/
theorem Transaction.refusal_wr_iff (cfg : Config) (off : Nat) (d : Word) :
    (∃ e, (Transaction.wr off d).refusal cfg = some e) ↔
      (off % 4 ≠ 0 ∨ 0x100 ≤ off ∨ off ∈ reservedOffsets) ∨ off = 0x004 ∨ off = 0x018 ∨ 0x080 ≤ off := by
  rw [← Reg.atOffset_error_iff, Transaction.refusal]
  cases hreg : Reg.atOffset off with
  | error e => simp
  | ok r =>
    rw [← Reg.readOnly_iff hreg]
    cases hro : r.readOnly <;> simp [hro]

/-- R77. The PUTs the bus refuses. -/
theorem Transaction.refusal_put_iff (cfg : Config) (a : Nat) (v : Bytes) :
    (∃ e, (Transaction.put a v).refusal cfg = some e) ↔ cfg.bufBytes < a + v.length := by
  rw [← Nat.not_le, Transaction.refusal]
  by_cases hin : a + v.length ≤ cfg.bufBytes <;> simp [hin]

/-- R77. The GETs the bus refuses. -/
theorem Transaction.refusal_get_iff (cfg : Config) (a n : Nat) :
    (∃ e, (Transaction.get a n).refusal cfg = some e) ↔ cfg.bufBytes < a + n := by
  rw [← Nat.not_le, Transaction.refusal]
  by_cases hin : a + n ≤ cfg.bufBytes <;> simp [hin]

/-- R262. A transaction that the bus refuses leaves the state as it was. -/
theorem State.afterTransaction_refused {s : State} {t : Transaction} {e : BusError}
    (h : t.refusal s.cfg = some e) : s.afterTransaction t = s := by
  rw [State.afterTransaction, (transact_refused_iff t s e).2 h]

/-- Settles O39: a step refuses what `Transaction.refusal` names, which is characterised transaction by
transaction and depends on nothing but the size of `BUF`. -/
theorem busRefusesExactlyIllFormed : Obligations.BusRefusesExactlyIllFormed := by
  intro s t rest hpending
  simp only [step_refused_iff hpending]
  refine ⟨?_, fun ⟨e, hcause⟩ => State.afterTransaction_refused hcause⟩
  cases t with
  | wr off d => exact Transaction.refusal_wr_iff s.cfg off d
  | rd off => exact Transaction.refusal_rd_iff s.cfg off
  | put a v => exact Transaction.refusal_put_iff s.cfg a v
  | get a n => exact Transaction.refusal_get_iff s.cfg a n

end Sys2Proof.Machine
end

section
/-! PROOFS. What each command writes: the summary of R41, and the operands it does not read (R22, R24,
R33). -/

namespace Sys2Proof.Machine

/-! ### What a command writes -/

/-- `u` is `s` after the writes that a successful command may make, before its flags; `n` is the `OUTLEN` it
then leaves. These are the rows of R41, with what R66 admits of a store to `BUF`. -/
inductive CommandWrites (s : State) : Instr → (n : Nat) → (u : State) → Prop where
  | keyexp : CommandWrites s .keyexp 0 (s.setSchedule (keySchedule s.key))
  | block {i : Instr} (hi : i ∈ [Instr.encblk, Instr.decblk]) (b : Vector Word 4) :
      CommandWrites s i 0 (s.setBlk b)
  | mode {i : Instr} (hi : i ∈ [Instr.cbcenc, Instr.cbcdec, Instr.ecbenc, Instr.ecbdec]) {v : Bytes}
      {n : Nat} (hin : s.dstAddr + v.length ≤ s.cfg.bufBytes) (hn : n ≤ v.length) :
      CommandWrites s i n (s.memWrite s.dstAddr v)
  | hashState {i : Instr} (hi : i ∈ [Instr.hinit, Instr.hblock]) (v : Vector Word 8) :
      CommandWrites s i 0 (s.setH v)
  | hash {v : Vector Word 8} (hin : s.dstAddr + digestBytes ≤ s.cfg.bufBytes) :
      CommandWrites s .hash digestBytes ((s.setH v).memWrite s.dstAddr (digestOf v))

/-- `t` is what a command may leave: the error exit, or its writes with the flags of success. -/
def CommandLeaves (i : Instr) (s t : State) : Prop :=
  (∃ c, t = s.cmdError c) ∨ ∃ n bad u, CommandWrites s i n u ∧ t = u.cmdDone n bad

/-- R66. The output range of an admitted command lies in `BUF`. -/
theorem State.output_inside {s : State} {i : Instr} (hi : i ∈ rangeCommands) (hadm : s.Admits i) :
    s.dstAddr + s.outcap i ≤ s.cfg.bufBytes := by
  obtain ⟨-, -, ⟨hrange, -⟩, -⟩ := hadm
  exact (hrange hi).2

theorem blockCommand_leaves {i : Instr} (hi : i ∈ [Instr.encblk, Instr.decblk])
    (f : Vector Word 4 → Vector Word 32 → Vector Word 4) (s : State) :
    CommandLeaves i s (blockCommand f s) := by
  rcases blockCommand_cases f s with ⟨-, hrun⟩ | ⟨-, hrun⟩
  · exact .inr ⟨_, _, _, .block hi _, hrun⟩
  · exact .inl ⟨_, hrun⟩

theorem encryptCommand_leaves {i : Instr} (hi : i = .cbcenc ∨ i = .ecbenc) {f : Bytes → Bytes}
    (hf : ∀ m, (f m).length = paddedLength m.length) (s : State) :
    CommandLeaves i s (encryptCommand f s) := by
  rcases encryptCommand_cases f s with ⟨c, -, hrun⟩ | ⟨hnone, hrun⟩
  · exact .inl ⟨c, hrun⟩
  · have hlen : (f (s.memRead s.srcAddr s.lenBytes)).length = paddedLength s.lenBytes := by
      rw [hf, State.memRead_length]
    have hin : s.dstAddr + paddedLength s.lenBytes ≤ s.cfg.bufBytes :=
      State.output_inside (i := .cbcenc) (by decide) ((s.admits_encrypt (.inl rfl)).2 hnone)
    have hmode : i ∈ [Instr.cbcenc, Instr.cbcdec, Instr.ecbenc, Instr.ecbdec] := by
      rcases hi with rfl | rfl <;> decide
    exact .inr ⟨_, _, _, .mode hmode (by rwa [hlen]) hlen.ge, hrun⟩

theorem decryptCommand_leaves {i : Instr} (hi : i = .cbcdec ∨ i = .ecbdec) {f : Bytes → Bytes}
    (hf : ∀ m : Bytes, m.length % 16 = 0 → (f m).length = m.length) (s : State) :
    CommandLeaves i s (decryptCommand f s) := by
  rcases decryptCommand_cases f s with ⟨c, -, hrun⟩ | ⟨hnone, hrun⟩
  · exact .inl ⟨c, hrun⟩
  have hlen : (f (s.memRead s.srcAddr s.lenBytes)).length = s.lenBytes := by
    rw [hf _ (State.input_length_mod_of_decryptError hnone), State.memRead_length]
  have hin : s.dstAddr + s.lenBytes ≤ s.cfg.bufBytes :=
    State.output_inside (i := .cbcdec) (by decide) ((s.admits_decrypt (.inl rfl)).2 hnone)
  have hmode : i ∈ [Instr.cbcenc, Instr.cbcdec, Instr.ecbenc, Instr.ecbdec] := by
    rcases hi with rfl | rfl <;> decide
  rw [hrun]
  rcases deliverDecrypted_cases (f (s.memRead s.srcAddr s.lenBytes)) s with ⟨-, -, hend⟩ | ⟨-, hend⟩
  · exact .inl ⟨_, hend⟩
  · exact .inr ⟨_, _, _, .mode hmode (by rwa [hlen]) (unpad_length_le _), hend⟩

/-- Every command takes the error exit, or makes its own writes and succeeds. -/
theorem exec_leaves (i : Instr) (s : State) : ∃ t, exec i s = .next t ∧ CommandLeaves i s t := by
  cases i with
  | keyexp => exact ⟨_, rfl, .inr ⟨_, _, _, .keyexp, rfl⟩⟩
  | encblk | decblk => exact ⟨_, rfl, blockCommand_leaves (by decide) _ s⟩
  | cbcenc => exact ⟨_, rfl, encryptCommand_leaves (.inl rfl) (fun m => cbcEncrypt_length m _ _) s⟩
  | ecbenc => exact ⟨_, rfl, encryptCommand_leaves (.inr rfl) (fun m => ecbEncrypt_length m _) s⟩
  | cbcdec =>
    exact ⟨_, rfl,
      decryptCommand_leaves (.inl rfl) (fun m => cbcDecryptRaw_length _ (bytes16_length _)) s⟩
  | ecbdec => exact ⟨_, rfl, decryptCommand_leaves (.inr rfl) (fun m => ecbDecryptRaw_length _) s⟩
  | hinit => exact ⟨_, rfl, .inr ⟨_, _, _, .hashState (by decide) _, rfl⟩⟩
  | hblock =>
    cases hcheck : s.hblockError with
    | some c => exact ⟨_, exec_refused (i := .hblock) hcheck, .inl ⟨c, rfl⟩⟩
    | none => exact ⟨_, exec_hblock_admitted hcheck, .inr ⟨_, _, _, .hashState (by decide) _, rfl⟩⟩
  | hash =>
    cases hcheck : s.hashError with
    | some c => exact ⟨_, exec_refused (i := .hash) hcheck, .inl ⟨c, rfl⟩⟩
    | none =>
      have hin := State.output_inside (i := .hash) (by decide) (s.admits_hash.2 hcheck)
      exact ⟨_, exec_hash_admitted hcheck, .inr ⟨_, _, _, .hash hin, rfl⟩⟩

theorem commandLeaves_of_exec {i : Instr} {s t : State} (hexec : exec i s = .next t) :
    CommandLeaves i s t := by
  obtain ⟨u, hu, hleaves⟩ := exec_leaves i s
  cases hu.symm.trans hexec
  exact hleaves

/-! ### The columns of R41 -/

/-- R41. `t` differs from `s` only in the columns that the table of commands gives `i`, and in `ERR`, `PADBAD`
and `OUTLEN`. -/
def KeepsOtherColumns (i : Instr) (s t : State) : Prop :=
  t.key = s.key ∧ t.iv = s.iv ∧ t.src = s.src ∧ t.dst = s.dst ∧ t.len = s.len ∧ t.strict = s.strict ∧
    (i ≠ .keyexp → t.rk = s.rk ∧ t.rkv = s.rkv) ∧
    (i ∉ [Instr.encblk, Instr.decblk] → t.blk = s.blk) ∧
    (i ∉ [Instr.hinit, Instr.hblock, Instr.hash] → t.h = s.h) ∧
    (i ∉ [Instr.cbcenc, Instr.cbcdec, Instr.ecbenc, Instr.ecbdec, Instr.hash] → SameBuf s t) ∧
    t.cfg = s.cfg ∧ t.powerUps = s.powerUps ∧ t.pending = s.pending ∧ t.responses = s.responses

theorem cmdError_keepsOtherColumns (i : Instr) (s : State) (c : ErrCode) :
    KeepsOtherColumns i s (s.cmdError c) := by
  have hbuf : SameBuf s (s.cmdError c) := s.cmdError_readByte c
  simp [KeepsOtherColumns, hbuf]

theorem CommandWrites.keepsOtherColumns {i : Instr} {s u : State} {n : Nat} (h : CommandWrites s i n u)
    (bad : Bool) : KeepsOtherColumns i s (u.cmdDone n bad) := by
  cases h with
  | keyexp =>
    have hbuf : SameBuf s ((s.setSchedule (keySchedule s.key)).cmdDone 0 bad) := fun _ => rfl
    simp [KeepsOtherColumns, hbuf]
  | block hi b =>
    have hbuf : SameBuf s ((s.setBlk b).cmdDone 0 bad) := fun _ => rfl
    simp [KeepsOtherColumns, hbuf, hi, -List.mem_cons]
  | mode hi =>
    have hcolumn : i ∈ [Instr.cbcenc, Instr.cbcdec, Instr.ecbenc, Instr.ecbdec, Instr.hash] :=
      List.mem_append_left [Instr.hash] hi
    simp [KeepsOtherColumns, hcolumn, -List.mem_cons]
  | hashState hi v =>
    have hcolumn : i ∈ [Instr.hinit, Instr.hblock, Instr.hash] := List.mem_append_left [Instr.hash] hi
    have hbuf : SameBuf s ((s.setH v).cmdDone 0 bad) := fun _ => rfl
    simp [KeepsOtherColumns, hbuf, hcolumn, -List.mem_cons]
  | hash => simp [KeepsOtherColumns]

/-- R41. Every command ends in a next state and keeps all columns but its own. -/
theorem exec_keepsOtherColumns (i : Instr) (s : State) :
    ∃ t, exec i s = .next t ∧ KeepsOtherColumns i s t := by
  obtain ⟨t, hexec, ⟨c, rfl⟩ | ⟨n, bad, u, hwrites, rfl⟩⟩ := exec_leaves i s
  · exact ⟨_, hexec, cmdError_keepsOtherColumns i s c⟩
  · exact ⟨_, hexec, hwrites.keepsOtherColumns bad⟩

/-- Settles O29: a command takes the error exit, which keeps every column, or makes the writes of its row. -/
theorem commandsWriteOnlyTheirColumns : Obligations.CommandsWriteOnlyTheirColumns := exec_keepsOtherColumns

/-! ### Operands that a command does not read -/

/-- Another `KEY`, `IV` and `CTRL.STRICT`. -/
def State.withOperands (s : State) (key iv : Vector Word 4) (strict : Bool) : State :=
  { s with key := key, iv := iv, strict := strict }

section Operands

variable (s : State) (key iv : Vector Word 4) (strict : Bool)

@[simp] theorem State.memRead_withOperands (a n : Nat) :
    (s.withOperands key iv strict).memRead a n = s.memRead a n := State.memRead_congr fun _ _ => rfl

/-- The checks of R175 read neither `KEY` nor `IV` nor `STRICT`. -/
theorem State.checkError_withOperands (i : Instr) :
    (s.withOperands key iv strict).checkError i = s.checkError i := by
  cases i <;> rfl

theorem blockCommand_withOperands (f : Vector Word 4 → Vector Word 32 → Vector Word 4)
    (h : s.blockError = none) :
    blockCommand f (s.withOperands key iv strict) = (blockCommand f s).withOperands key iv strict := by
  have h' := (s.checkError_withOperands key iv strict .encblk).trans h
  rw [blockCommand_admitted f h, blockCommand_admitted f h']
  rfl

theorem encryptCommand_withOperands (f : Bytes → Bytes) (h : s.encryptError = none) :
    encryptCommand f (s.withOperands key iv strict) = (encryptCommand f s).withOperands key iv strict := by
  have h' := (s.checkError_withOperands key iv strict .cbcenc).trans h
  rw [encryptCommand_admitted f h, encryptCommand_admitted f h', State.memRead_withOperands]
  rfl

theorem deliverDecrypted_withOperands (d : Bytes) : deliverDecrypted d (s.withOperands key iv s.strict) =
    (deliverDecrypted d s).withOperands key iv s.strict := by
  cases hbad : (unpad d).2 && s.strict with
  | true => simp only [deliverDecrypted, State.withOperands, hbad]; rfl
  | false => simp only [deliverDecrypted, State.withOperands, hbad]; rfl

/-- R177, R179. A decryption reads `STRICT`, but neither `KEY` nor, beyond its transform, `IV`. -/
theorem decryptCommand_withOperands (f : Bytes → Bytes) (h : s.decryptError = none) :
    decryptCommand f (s.withOperands key iv s.strict) = (decryptCommand f s).withOperands key iv s.strict := by
  have h' := (s.checkError_withOperands key iv s.strict .cbcdec).trans h
  rw [decryptCommand_admitted f h, decryptCommand_admitted f h', State.memRead_withOperands,
    ← deliverDecrypted_withOperands]
  rfl

/-- R22, R24, R33. A command that reads none of the operands that change leaves what it left, with those
changed. -/
theorem exec_withOperands {i : Instr} {s t : State} {key iv : Vector Word 4} {strict : Bool}
    (hkey : i = .keyexp → key = s.key) (hiv : i ∈ [Instr.cbcenc, Instr.cbcdec] → iv = s.iv)
    (hstrict : i ∈ [Instr.cbcdec, Instr.ecbdec] → strict = s.strict) (hexec : exec i s = .next t) :
    exec i (s.withOperands key iv strict) = .next (t.withOperands key iv strict) := by
  have hcheck := s.checkError_withOperands key iv strict i
  cases hc : s.checkError i with
  | some c =>
    cases (exec_refused hc).symm.trans hexec
    exact exec_refused (hcheck.trans hc)
  | none =>
    cases i with
    | keyexp => cases hexec; cases hkey rfl; rfl
    | encblk | decblk => cases hexec; exact congrArg _ (blockCommand_withOperands s key iv strict _ hc)
    | cbcenc =>
      cases hexec
      cases hiv (by decide)
      exact congrArg _ (encryptCommand_withOperands s key _ strict _ hc)
    | ecbenc => cases hexec; exact congrArg _ (encryptCommand_withOperands s key iv strict _ hc)
    | cbcdec =>
      cases hexec
      cases hiv (by decide)
      cases hstrict (by decide)
      exact congrArg _ (decryptCommand_withOperands s key _ _ hc)
    | ecbdec =>
      cases hexec
      cases hstrict (by decide)
      exact congrArg _ (decryptCommand_withOperands s key iv _ hc)
    | hinit => cases hexec; rfl
    | hblock =>
      cases (exec_hblock_admitted hc).symm.trans hexec
      rw [exec_hblock_admitted (hcheck.trans hc), State.memRead_withOperands]
      rfl
    | hash =>
      cases (exec_hash_admitted hc).symm.trans hexec
      rw [exec_hash_admitted (hcheck.trans hc), State.memRead_withOperands]
      rfl

end Operands

/-- Settles O31: each clause changes one operand and keeps the two others, which the command itself keeps. -/
theorem operandsAreReadByTheirCommandsOnly : Obligations.OperandsAreReadByTheirCommandsOnly := by
  intro i s t hexec
  obtain ⟨u, hu, hkey, hiv, -, -, -, hstrict, -⟩ := exec_keepsOtherColumns i s
  cases hu.symm.trans hexec
  refine ⟨fun hi k => ?_, fun hi v => ?_, fun hi b => ?_⟩
  · refine (exec_withOperands (key := k) (fun h => absurd h hi) (fun _ => rfl) (fun _ => rfl) hexec).trans ?_
    rw [← hiv, ← hstrict]; rfl
  · refine (exec_withOperands (iv := v) (fun _ => rfl) (fun h => absurd h hi) (fun _ => rfl) hexec).trans ?_
    rw [← hkey, ← hstrict]; rfl
  · refine (exec_withOperands (strict := b) (fun _ => rfl) (fun _ => rfl) (fun h => absurd h hi)
      hexec).trans ?_
    rw [← hkey, ← hiv]; rfl

end Sys2Proof.Machine
end

section
/-! PROOFS. What every step keeps: the invariant, the well-formedness of the host's program (R100, R262,
R272), and the round keys (R23); the idle step and power-up (R291). -/

namespace Sys2Proof.Machine

/-! ### An accepted transaction -/

/-- What an accepted transaction does, by its kind (R241, R242, R77). -/
theorem transact_next {t : Transaction} {s u : State} (hrun : transact t s = .next u) :
    match t with
    | .wr off d => ∃ r : Reg, off = r.offset ∧ writeReg r d s = .next u
    | .rd off => ∃ r : Reg, off = r.offset ∧ u = s.respond (.word (s.readReg r))
    | .put a v => a + v.length ≤ s.cfg.bufBytes ∧ u = s.memWrite a v
    | .get a n => a + n ≤ s.cfg.bufBytes ∧ u = s.respond (.bytes (s.memRead a n)) := by
  cases t with
  | wr off d =>
    cases hreg : Reg.atOffset off with
    | error e => cases (hostWr_error hreg d s).symm.trans hrun
    | ok r =>
      obtain rfl := Reg.offset_of_atOffset hreg
      exact ⟨r, rfl, (hostWr_offset r d s).symm.trans hrun⟩
  | rd off =>
    cases hreg : Reg.atOffset off with
    | error e => cases (hostRd_error hreg s).symm.trans hrun
    | ok r =>
      obtain rfl := Reg.offset_of_atOffset hreg
      cases (hostRd_offset r s).symm.trans hrun
      exact ⟨r, rfl, rfl⟩
  | put a v =>
    rcases Nat.lt_or_ge s.cfg.bufBytes (a + v.length) with hout | hin
    · cases (hostPut_outside hout).symm.trans hrun
    · cases (hostPut_inside hin).symm.trans hrun
      exact ⟨hin, rfl⟩
  | get a n =>
    rcases Nat.lt_or_ge s.cfg.bufBytes (a + n) with hout | hin
    · cases (hostGet_outside hout).symm.trans hrun
    · cases (hostGet_inside hin).symm.trans hrun
      exact ⟨hin, rfl⟩

/-! ### The invariant under the updates of the state -/

section Updates

variable {s : State}

theorem State.Inv.withPending (h : s.Inv) (p : List HostStep) : (s.withPending p).Inv := { h with }

theorem State.Inv.respond (h : s.Inv) (r : Response) : (s.respond r).Inv := { h with }

theorem State.Inv.setBlk (h : s.Inv) (b : Vector Word 4) : (s.setBlk b).Inv := { h with }

theorem State.Inv.setH (h : s.Inv) (v : Vector Word 8) : (s.setH v).Inv := { h with }

/-- R31, R150. The words KEYEXP leaves are the schedule of `KEY`. -/
theorem State.Inv.setSchedule (h : s.Inv) : (s.setSchedule (keySchedule s.key)).Inv :=
  { h with rk_schedule := fun _ => rfl }

/-- R22. A write to `KEY` clears `RKV`, so nothing is claimed of `RK` any more. -/
theorem State.Inv.writeKey (h : s.Inv) (k : Fin 4) (d : Word) : (s.writeKey k d).Inv :=
  { h with rk_schedule := nofun }

/-- R35, R64. A store inside `BUF` lists no address beyond it. -/
theorem State.Inv.memWrite (h : s.Inv) {a : Nat} {v : Bytes} (hin : a + v.length ≤ s.cfg.bufBytes) :
    (s.memWrite a v).Inv :=
  { h with
    buf_wf := Memory.setBytes_wf a v h.buf_wf
    buf_inside := fun c hc => by
      rcases Memory.mem_setBytes hc with ⟨-, hlt⟩ | hold
      · exact Nat.lt_of_lt_of_le hlt hin
      · exact h.buf_inside c hold }

/-- R266. The error exit sets `OUTLEN` to 0 and `PADBAD` for `ERR_PADDING` alone. -/
theorem State.Inv.cmdError (h : s.Inv) (c : ErrCode) : (s.cmdError c).Inv :=
  { h with
    outlen_err := fun _ => rfl
    padbad_err := fun hpad => .inr (of_decide_eq_true hpad)
    padding_padbad := fun hc => decide_eq_true hc
    outlen_inside := Nat.zero_le _ }

/-- R266. A command that succeeds leaves `OK`, beside which any `PADBAD` may stand. -/
theorem State.Inv.cmdDone (h : s.Inv) {n : Nat} (hn : n ≤ s.cfg.bufBytes) (bad : Bool) :
    (s.cmdDone n bad).Inv :=
  { h with
    outlen_err := fun herr => absurd rfl herr
    padbad_err := fun _ => .inl rfl
    padding_padbad := nofun
    outlen_inside := by
      rw [State.cmdDone_outlen, BitVec.toNat_ofNat]
      exact (Nat.mod_le _ _).trans hn }

/-- R290. The reset registers satisfy every clause but those about `BUF` and its size, which reset keeps. -/
theorem State.Inv.resetRegisters (h : s.Inv) : s.resetRegisters.Inv :=
  { h with
    rk_schedule := nofun
    outlen_err := fun _ => rfl
    padbad_err := nofun
    padding_padbad := nofun
    outlen_inside := Nat.zero_le _ }

theorem State.Inv.powerUp (h : s.Inv) : s.powerUp.Inv :=
  { h.resetRegisters with
    buf_wf := List.Pairwise.nil
    buf_inside := nofun }

end Updates

/-! ### The invariant under commands and steps -/

theorem CommandWrites.inv {i : Instr} {s u : State} {n : Nat} (h : CommandWrites s i n u) (hs : s.Inv)
    (bad : Bool) : (u.cmdDone n bad).Inv := by
  cases h with
  | keyexp => exact hs.setSchedule.cmdDone (Nat.zero_le _) bad
  | block hi b => exact (hs.setBlk b).cmdDone (Nat.zero_le _) bad
  | mode hi hin hn => exact (hs.memWrite hin).cmdDone (by rw [State.memWrite_cfg]; omega) bad
  | hashState hi v => exact (hs.setH v).cmdDone (Nat.zero_le _) bad
  | @hash v hin =>
    have hstore : s.dstAddr + (digestOf v).length ≤ s.cfg.bufBytes := by rwa [digestOf_length]
    exact ((hs.setH v).memWrite hstore).cmdDone (Nat.le_of_add_left_le hin) bad

/-- Every command keeps the invariant. -/
theorem exec_inv {i : Instr} {s t : State} (hs : s.Inv) (hexec : exec i s = .next t) : t.Inv := by
  rcases commandLeaves_of_exec hexec with ⟨c, rfl⟩ | ⟨n, bad, u, hwrites, rfl⟩
  · exact hs.cmdError c
  · exact hwrites.inv hs bad

theorem commandWord_inv {w : Word} {s t : State} (hs : s.Inv) (hrun : commandWord w s = .next t) :
    t.Inv := by
  rcases commandWord_cases w s with ⟨i, -, hexec⟩ | ⟨e, -, hillegal⟩
  · exact exec_inv hs (hexec.symm.trans hrun)
  · cases hillegal.symm.trans hrun
    exact hs.cmdError .illegal

theorem writeReg_inv {r : Reg} {d : Word} {s t : State} (hs : s.Inv) (hrun : writeReg r d s = .next t) :
    t.Inv := by
  cases r with
  | cmd => exact commandWord_inv hs hrun
  | status | outlen | rk => cases hrun
  | key k => cases hrun; exact hs.writeKey k d
  | ctrl | src | dst | len | iv | blk | h => cases hrun; exact { hs with }

theorem transact_inv {t : Transaction} {s u : State} (hs : s.Inv) (hrun : transact t s = .next u) :
    u.Inv := by
  cases t with
  | wr off d =>
    obtain ⟨r, -, hwrite⟩ := transact_next hrun
    exact writeReg_inv hs hwrite
  | rd off =>
    obtain ⟨r, -, rfl⟩ := transact_next hrun
    exact hs.respond _
  | put a v =>
    obtain ⟨hin, rfl⟩ := transact_next hrun
    exact hs.memWrite hin
  | get a n =>
    obtain ⟨-, rfl⟩ := transact_next hrun
    exact hs.respond _

theorem hostStep_inv {e : HostStep} {s t : State} (hs : s.Inv) (hrun : hostStep e s = .next t) : t.Inv := by
  cases e with
  | bus tr => exact transact_inv hs hrun
  | reset => cases hrun; exact hs.resetRegisters
  | powerUp => cases hrun; exact hs.powerUp

/-- Settles O50: an idle step keeps the state, and every other one performs an action of the host on the state
past it, which keeps the invariant action by action. -/
theorem stepKeepsInvariant : Obligations.StepKeepsInvariant := by
  intro s t hs hstep
  cases hpending : s.pending with
  | nil =>
    cases (step_nil hpending).symm.trans hstep
    exact hs
  | cons e rest => exact hostStep_inv (hs.withPending rest) ((step_cons hpending).symm.trans hstep)

/-- Settles O49: `BUF` is empty, `RKV` is clear and the flags are those of success. -/
theorem invariantHoldsAtReset : Obligations.InvariantHoldsAtReset where
  cfg_wf := by decide
  buf_wf := reset_buf_wf
  buf_inside := nofun
  rk_schedule := nofun
  outlen_err := fun _ => rfl
  padbad_err := nofun
  padding_padbad := nofun
  outlen_inside := Nat.zero_le _

/-! ### The host's program -/

/-- `t` holds the same list and the same size of `BUF` as `s`. -/
def KeepsProgram (s t : State) : Prop := t.pending = s.pending ∧ t.cfg = s.cfg

theorem exec_keepsProgram {i : Instr} {s t : State} (hexec : exec i s = .next t) : KeepsProgram s t := by
  obtain ⟨u, hu, -, -, -, -, -, -, -, -, -, -, hcfg, -, hpending, -⟩ := exec_keepsOtherColumns i s
  cases hu.symm.trans hexec
  exact ⟨hpending, hcfg⟩

theorem commandWord_keepsProgram {w : Word} {s t : State} (hrun : commandWord w s = .next t) :
    KeepsProgram s t := by
  rcases commandWord_cases w s with ⟨i, -, hexec⟩ | ⟨e, -, hillegal⟩
  · exact exec_keepsProgram (hexec.symm.trans hrun)
  · cases hillegal.symm.trans hrun
    exact ⟨rfl, rfl⟩

theorem writeReg_keepsProgram {r : Reg} {d : Word} {s t : State} (hrun : writeReg r d s = .next t) :
    KeepsProgram s t := by
  cases r with
  | cmd => exact commandWord_keepsProgram hrun
  | status | outlen | rk => cases hrun
  | ctrl | src | dst | len | key | iv | blk | h => cases hrun; exact ⟨rfl, rfl⟩

theorem transact_keepsProgram {t : Transaction} {s u : State} (hrun : transact t s = .next u) :
    KeepsProgram s u := by
  cases t with
  | wr off d =>
    obtain ⟨r, -, hwrite⟩ := transact_next hrun
    exact writeReg_keepsProgram hwrite
  | rd off => obtain ⟨r, -, rfl⟩ := transact_next hrun; exact ⟨rfl, rfl⟩
  | put a v => obtain ⟨-, rfl⟩ := transact_next hrun; exact ⟨rfl, rfl⟩
  | get a n => obtain ⟨-, rfl⟩ := transact_next hrun; exact ⟨rfl, rfl⟩

/-- R262, R272. A well-formed action of the outside world ends in a next state and keeps the rest of the
program. -/
theorem hostStep_next {e : HostStep} {s : State} (hwf : e.wf s.cfg = true) :
    ∃ t, hostStep e s = .next t ∧ KeepsProgram s t := by
  cases e with
  | bus tr =>
    have haccepted : tr.refusal s.cfg = none := Option.isNone_iff_eq_none.1 hwf
    rcases transact_cases tr s with ⟨c, hcause, -⟩ | ⟨-, t, hrun⟩
    · cases haccepted.symm.trans hcause
    · exact ⟨t, hrun, transact_keepsProgram hrun⟩
  | reset => exact ⟨_, rfl, rfl, rfl⟩
  | powerUp => exact ⟨_, rfl, rfl, rfl⟩

theorem programWf_cons {cfg : Config} {e : HostStep} {rest : List HostStep} :
    programWf cfg (e :: rest) = true ↔ e.wf cfg = true ∧ programWf cfg rest = true := by
  simp [programWf]

/-- Settles O52: the first entry is well formed, so its step ends in a next state that keeps the rest of the
list and the size of `BUF`, on which well-formedness depends. -/
theorem stepKeepsProgramWellFormed : Obligations.StepKeepsProgramWellFormed := by
  intro s hwf
  cases hpending : s.pending with
  | nil => exact ⟨s, step_nil hpending, hpending, rfl, hwf⟩
  | cons e rest =>
    rw [hpending, programWf_cons] at hwf
    obtain ⟨hfirst, hrest⟩ := hwf
    obtain ⟨t, hrun, htail, hcfg⟩ := hostStep_next (s := s.withPending rest) hfirst
    exact ⟨t, (step_cons hpending).trans hrun, htail, hcfg, by rw [hcfg, htail]; exact hrest⟩

/-- R100, R272. From a well-formed program a run of any length goes on, and takes one entry at each step. -/
theorem run_of_programWf (k : Nat) {s : State} (hwf : programWf s.cfg s.pending = true) :
    ∃ t, Sys2Proof.core.run k s = .next t ∧ t.pending = s.pending.drop k := by
  induction k generalizing s with
  | zero => exact ⟨s, rfl, rfl⟩
  | succ k ih =>
    obtain ⟨u, hstep, htail, -, hwf'⟩ := stepKeepsProgramWellFormed s hwf
    obtain ⟨t, hrun, hdrop⟩ := ih hwf'
    exact ⟨t, (run_succ k hstep).trans hrun, by rw [hdrop, htail, List.drop_tail]⟩

/-- Settles O51: as many steps as the list is long take all of it, and no number of steps stops. -/
theorem wellFormedProgramRunsToEnd : Obligations.WellFormedProgramRunsToEnd := by
  intro s hwf
  refine ⟨?_, fun k => ?_⟩
  · obtain ⟨t, hrun, hdrop⟩ := run_of_programWf s.pending.length hwf
    exact ⟨t, hrun, hdrop.trans List.drop_length⟩
  · obtain ⟨t, hrun, -⟩ := run_of_programWf k hwf
    exact ⟨t, hrun⟩

/-! ### The round keys -/

/-- R23. Of the command words, only that of KEYEXP changes `RK`. -/
theorem commandWord_keeps_rk {w : Word} {s t : State} (hw : w ≠ encode .keyexp)
    (hrun : commandWord w s = .next t) : t.rk = s.rk := by
  rcases commandWord_cases w s with ⟨i, hdecode, hexec⟩ | ⟨e, -, hillegal⟩
  · have hi : i ≠ .keyexp := fun hi => hw (hi ▸ (decode_eq_ok_iff w i).1 hdecode)
    obtain ⟨u, hu, -, -, -, -, -, -, hkeys, -⟩ := exec_keepsOtherColumns i s
    cases hu.symm.trans (hexec.symm.trans hrun)
    exact (hkeys hi).1
  · cases hillegal.symm.trans hrun
    rfl

/-- R23. Of the transactions, only the command KEYEXP changes `RK`. -/
theorem transact_keeps_rk {t : Transaction} {s u : State} (ht : t ≠ command .keyexp)
    (hrun : transact t s = .next u) : u.rk = s.rk := by
  cases t with
  | wr off d =>
    obtain ⟨r, rfl, hwrite⟩ := transact_next hrun
    cases r with
    | cmd =>
      have hd : d ≠ encode .keyexp := by rintro rfl; exact ht rfl
      exact commandWord_keeps_rk hd hwrite
    | status | outlen | rk => cases hwrite
    | ctrl | src | dst | len | key | iv | blk | h => cases hwrite; rfl
  | rd off => obtain ⟨r, -, rfl⟩ := transact_next hrun; rfl
  | put a v => obtain ⟨-, rfl⟩ := transact_next hrun; rfl
  | get a n => obtain ⟨-, rfl⟩ := transact_next hrun; rfl

/-- Settles O45: an idle step keeps `RK`, and so does every transaction but the command KEYEXP, of word 1. -/
theorem roundKeysChangeOnlyByKeyexp : Obligations.RoundKeysChangeOnlyByKeyexp := by
  intro s t hstep hrk
  cases hpending : s.pending with
  | nil =>
    cases (step_nil hpending).symm.trans hstep
    exact absurd rfl hrk
  | cons e rest =>
    refine ⟨e, rest, rfl, ?_⟩
    rw [step_cons hpending] at hstep
    cases e with
    | bus tr =>
      have htr : tr = command .keyexp := by
        by_contra hother
        exact hrk (transact_keeps_rk (s := s.withPending rest) hother hstep)
      rw [htr]
      exact List.mem_cons_self
    | reset | powerUp => simp

/-! ### Single steps -/

/-- Settles O36: it is the first case of `step`. -/
theorem idleKeepsState : Obligations.IdleKeepsState := fun _ => step_nil

/-- A command word that selects `i` runs `i`. -/
theorem commandWord_of_decode {w : Word} {i : Instr} (h : decode w = .ok i) (s : State) :
    commandWord w s = exec i s := by
  rw [commandWord, h]

/-- `withFetchWord` puts the command write before the list. -/
theorem State.withFetchWord_toNat (s : State) (w : Word) :
    s.withFetchWord 32 w.toNat = s.withPending (.bus (.wr 0x000 w) :: s.pending) := by
  rw [State.withFetchWord, Nat.mod_eq_of_lt w.isLt, BitVec.ofNat_toNat, BitVec.setWidth_eq]

/-- Settles O35: the pending write runs its word, which selects `i`. -/
theorem stepRunsDecodedCommand : Obligations.StepRunsDecodedCommand := by
  intro s w i rest hdecode
  refine ⟨fun hpending => ?_, ?_⟩
  · exact (step_wr_cmd hpending).trans (commandWord_of_decode hdecode _)
  · rw [State.withFetchWord_toNat]
    exact (step_wr_cmd rfl).trans (commandWord_of_decode hdecode s)

/-! ### Power-up and reset -/

/-- Settles O47: the registers are those of reset, and a byte of the emptied `BUF` reads as the free value. -/
theorem powerUpForgetsBuf : Obligations.PowerUpForgetsBuf := by
  intro s rest hpending
  have hctrl := State.ctrlWord_eq_zero (s.withPending rest).powerUp_strict
  have hstatus := State.statusWord_eq_zero (s.withPending rest).powerUp_rkv
    (s.withPending rest).powerUp_padbad (s.withPending rest).powerUp_err
  exact ⟨_, step_cons hpending, rfl, rfl, rfl, rfl, rfl, rfl, rfl, rfl, rfl, hctrl, hstatus, fun _ => rfl,
    rfl⟩

/-- Settles O48: each register is zero by definition, and the words of the flags by their fields. -/
theorem resetStateValues : Obligations.ResetStateValues :=
  ⟨rfl, rfl, rfl, rfl, rfl, rfl, rfl, rfl, rfl, State.ctrlWord_eq_zero rfl,
    State.statusWord_eq_zero rfl rfl rfl, rfl⟩

end Sys2Proof.Machine
end

section
/-! PROOFS. What undoes what: the block transform (R156), padding (R171), the two modes (R180); and the two
constant tables (R123, R126). -/

namespace Sys2Proof.Machine

/-! ### The tables -/

/-- The bytes of a list as a set: bit `k` is set when byte `k` stands in the list. -/
def byteMask (l : List Byte) : Nat := l.foldr (fun b acc => 2 ^ b.toNat ||| acc) 0

theorem testBit_byteMask (l : List Byte) (y : Byte) : (byteMask l).testBit y.toNat = true ↔ y ∈ l := by
  induction l with
  | nil => simp [byteMask]
  | cons b l ih =>
    rw [byteMask, List.foldr_cons, ← byteMask, Nat.testBit_or, Nat.testBit_two_pow, Bool.or_eq_true, ih,
      decide_eq_true_iff, BitVec.toNat_inj, List.mem_cons, eq_comm]

/-- The substitution table by index. -/
def sboxTable : List Byte := (List.range 256).map fun n => sbox (BitVec.ofNat 8 n)

/-- R123. Every byte stands in the table. -/
theorem byteMask_sboxTable : byteMask sboxTable = 2 ^ 256 - 1 := by decide +kernel

theorem sbox_surjective : Function.Surjective sbox := by
  intro y
  have hmem : y ∈ sboxTable := by
    rw [← testBit_byteMask, byteMask_sboxTable, Nat.testBit_two_pow_sub_one]
    exact decide_eq_true y.isLt
  obtain ⟨n, -, hn⟩ := List.mem_map.1 hmem
  exact ⟨_, hn⟩

/-- Settles O10: every byte is a result, and there are as many results as bytes. -/
theorem sboxIsPermutation : Obligations.SboxIsPermutation :=
  ⟨Finite.injective_iff_surjective.2 sbox_surjective, sbox_surjective⟩

/-- Settles O11, entry by entry. -/
theorem roundConstantsFollowPattern : Obligations.RoundConstantsFollowPattern := by
  unfold Obligations.RoundConstantsFollowPattern
  decide

/-! ### The block transform -/

/-- R154. The last round of the transform, on the words of the rounds before it, which stand in reverse
order. -/
theorem cryptWords_concat (x : Vector Word 4) (k : List Word) (r : Word) :
    cryptWords x (k ++ [r]) =
      #v[(cryptWords x k)[3] ^^^
          Trnd ((cryptWords x k)[2] ^^^ (cryptWords x k)[1] ^^^ (cryptWords x k)[0] ^^^ r),
        (cryptWords x k)[0], (cryptWords x k)[1], (cryptWords x k)[2]] := by
  unfold cryptWords
  generalize x[0] = x0, x[1] = x1, x[2] = x2, x[3] = x3
  induction k generalizing x0 x1 x2 x3 with
  | nil => rfl
  | cons c k ih => exact ih ..

/-- R156. The transform under the keys in reverse order takes the last round off first: each round mixes
a word with the same mask twice. -/
theorem cryptWords_cryptRounds_reverse (k : List Word) (x0 x1 x2 x3 : Word) :
    cryptWords (cryptRounds k x0 x1 x2 x3) k.reverse = #v[x0, x1, x2, x3] := by
  induction k generalizing x0 x1 x2 x3 with
  | nil => rfl
  | cons r k ih =>
    have hmask : x3 ^^^ x2 ^^^ x1 ^^^ r = x1 ^^^ x2 ^^^ x3 ^^^ r := by ac_rfl
    rw [List.reverse_cons, cryptWords_concat, cryptRounds, ih]
    simp [hmask]

/-- Four words are the vector of its four words. -/
theorem vector_four_eta (x : Vector Word 4) : #v[x[0], x[1], x[2], x[3]] = x := by
  obtain ⟨⟨words⟩, hlen⟩ := x
  obtain ⟨w0, w1, w2, w3, rfl⟩ := List.length_eq_four.1 hlen
  rfl

/-- R156. The transform is undone by the transform under the keys in reverse order. -/
theorem cryptWords_reverse (x : Vector Word 4) (k : List Word) :
    cryptWords (cryptWords x k) k.reverse = x :=
  (cryptWords_cryptRounds_reverse k x[0] x[1] x[2] x[3]).trans (vector_four_eta x)

@[simp] theorem decryptWords_encryptWords (x : Vector Word 4) (rk : Vector Word 32) :
    decryptWords (encryptWords x rk) rk = x :=
  cryptWords_reverse x rk.toList

@[simp] theorem encryptWords_decryptWords (x : Vector Word 4) (rk : Vector Word 32) :
    encryptWords (decryptWords x rk) rk = x := by
  have h := cryptWords_reverse x rk.toList.reverse
  rwa [List.reverse_reverse] at h

theorem decryptBlock_encryptBlock {b : Bytes} (hb : b.length = 16) (rk : Vector Word 32) :
    decryptBlock (encryptBlock b rk) rk = b := by
  rw [decryptBlock, encryptBlock, words4_bytes16, decryptWords_encryptWords, bytes16_words4 hb]

theorem encryptBlock_decryptBlock {b : Bytes} (hb : b.length = 16) (rk : Vector Word 32) :
    encryptBlock (decryptBlock b rk) rk = b := by
  rw [encryptBlock, decryptBlock, words4_bytes16, encryptWords_decryptWords, bytes16_words4 hb]

/-- Settles O4, by the inverse laws of the word transform and of blocks as words. -/
theorem blockFunctionsAreInverse : Obligations.BlockFunctionsAreInverse := fun rk _ hb =>
  ⟨decryptBlock_encryptBlock hb rk, encryptBlock_decryptBlock hb rk⟩

/-- Two block commands, the second undoing the transform of the first, restore all but the flags. -/
theorem blockCommand_blockCommand {f g : Vector Word 4 → Vector Word 32 → Vector Word 4}
    (hundo : ∀ x rk, g (f x rk) rk = x) {s : State} (hkey : s.rkv = true) :
    blockCommand g (blockCommand f s) = s.cmdDone 0 false := by
  have hfirst := blockCommand_admitted f (State.blockError_eq_none_iff.2 hkey)
  have hkey' : (blockCommand f s).rkv = true := by rw [hfirst]; exact hkey
  rw [blockCommand_admitted g (State.blockError_eq_none_iff.2 hkey'), hfirst]
  simp [hundo, State.setBlk, State.cmdDone]

/-- Settles O5: each of the two transforms undoes the other. -/
theorem blockCommandsUndoEachOther : Obligations.BlockCommandsUndoEachOther := by
  intro s i j hij hkey
  simp only [List.mem_cons, Prod.mk.injEq, List.not_mem_nil, or_false] at hij
  rcases hij with ⟨rfl, rfl⟩ | ⟨rfl, rfl⟩
  · exact ⟨_, _, rfl, rfl, blockCommand_blockCommand decryptWords_encryptWords hkey⟩
  · exact ⟨_, _, rfl, rfl, blockCommand_blockCommand encryptWords_decryptWords hkey⟩

/-! ### Padding -/

/-- R170. The last byte of a padded message is the number of bytes that were appended. -/
theorem lastByte_pad (m : Bytes) : lastByte (pad m) = BitVec.ofNat 8 (16 - m.length % 16) := by
  obtain ⟨p, hp⟩ : ∃ p, 16 - m.length % 16 = p + 1 := ⟨15 - m.length % 16, by omega⟩
  rw [pad, hp, List.replicate_succ', ← List.append_assoc, lastByte_concat]

theorem pad_take (m : Bytes) : (pad m).take m.length = m := List.take_left

/-- R171. `unpad` undoes `pad`: the count in the last byte is in range and takes off what was appended. -/
@[simp] theorem unpad_pad (m : Bytes) : unpad (pad m) = (m, false) := by
  have hcount : (lastByte (pad m)).toNat = 16 - m.length % 16 := by
    rw [lastByte_pad, BitVec.toNat_ofNat]
    omega
  have hrest : (pad m).length - (lastByte (pad m)).toNat = m.length := by
    rw [hcount, pad_length, paddedLength]
    omega
  rw [unpad_of_padByte (by omega) (by omega), hrest, pad_take]

/-- Settles O14: `unpad` takes off the count of bytes that `pad` appends. -/
theorem unpadUndoesPad : Obligations.UnpadUndoesPad := unpad_pad

/-! ### The modes -/

/-- A block xored twice with the same block. -/
theorem xor16_xor16 {a b : Bytes} (h : a.length = b.length) : xor16 (xor16 a b) b = a := by
  refine List.ext_getElem (by simp [xor16_length, h]) fun i _ _ => ?_
  simp [xor16]

/-- R172, R173. The loop of decryption undoes that of encryption: both chain the same ciphertext blocks. -/
theorem cbcDecryptBlocks_cbcEncryptBlocks (rk : Vector Word 32) (n : Nat) {chain p : Bytes}
    (hchain : chain.length = 16) (hp : p.length = 16 * n) :
    cbcDecryptBlocks rk n chain (cbcEncryptBlocks rk n chain p) = p := by
  induction n generalizing chain p with
  | zero => exact (List.eq_nil_of_length_eq_zero hp).symm
  | succ n ih =>
    have htake : (p.take 16).length = chain.length := by rw [List.length_take]; omega
    have hxor : (xor16 (p.take 16) chain).length = 16 := by rw [xor16_length]; omega
    have hdrop : (p.drop 16).length = 16 * n := by rw [List.length_drop]; omega
    have hcipher := encryptBlock_length (xor16 (p.take 16) chain) rk
    rw [cbcEncryptBlocks, cbcDecryptBlocks, List.take_left' hcipher, List.drop_left' hcipher,
      decryptBlock_encryptBlock hxor, xor16_xor16 htake, ih hcipher hdrop, List.take_append_drop]

/-- R174. Block by block, `g` undoes `f` on whole blocks when it does on each. -/
theorem mapBlocks_mapBlocks {f g : Bytes → Bytes} (hf : ∀ b, (f b).length = 16)
    (hundo : ∀ b : Bytes, b.length = 16 → g (f b) = b) (n : Nat) {p : Bytes} (hp : p.length = 16 * n) :
    mapBlocks g n (mapBlocks f n p) = p := by
  induction n generalizing p with
  | zero => exact (List.eq_nil_of_length_eq_zero hp).symm
  | succ n ih =>
    have htake : (p.take 16).length = 16 := by rw [List.length_take]; omega
    have hdrop : (p.drop 16).length = 16 * n := by rw [List.length_drop]; omega
    rw [mapBlocks, mapBlocks, List.take_left' (hf _), List.drop_left' (hf _), hundo _ htake, ih hdrop,
      List.take_append_drop]

/-- R180. Decryption of the chained mode gives the padded message back. -/
theorem cbcDecryptRaw_cbcEncrypt (m : Bytes) (rk : Vector Word 32) {iv : Bytes} (hiv : iv.length = 16) :
    cbcDecryptRaw (cbcEncrypt m rk iv) rk iv = pad m := by
  rw [cbcDecryptRaw, cbcEncrypt_length, ← pad_length]
  exact cbcDecryptBlocks_cbcEncryptBlocks rk _ hiv (pad_blocks m).symm

/-- R180. Decryption of the codebook mode gives the padded message back. -/
theorem ecbDecryptRaw_ecbEncrypt (m : Bytes) (rk : Vector Word 32) :
    ecbDecryptRaw (ecbEncrypt m rk) rk = pad m := by
  rw [ecbDecryptRaw, ecbEncrypt_length, ← pad_length]
  exact mapBlocks_mapBlocks (fun b => encryptBlock_length b rk)
    (fun b hb => decryptBlock_encryptBlock hb rk) _ (pad_blocks m).symm

/-! ### The mode commands -/

/-- The first bytes of what was just stored. -/
theorem State.memRead_memWrite_take (s : State) (a : Nat) {v : Bytes} {n : Nat} (h : n ≤ v.length) :
    (s.memWrite a v).memRead a n = v.take n := by
  obtain ⟨r, hr⟩ := Nat.exists_eq_add_of_le h
  have hall := s.memRead_memWrite a v
  rw [hr, State.memRead_add] at hall
  conv_rhs => rw [← hall]
  exact (List.take_left' (State.memRead_length _ _ _)).symm

/-- What R180 asks of the state `u` after both commands: the `n` bytes `m` stand at `a`, and the flags are
those of success. -/
def Recovers (m : Bytes) (a n : Nat) (u : State) : Prop :=
  u.memRead a n = m ∧ u.outlen.toNat = n ∧ u.padbad = false ∧ u.err = .ok

/-- R177, R179. Delivering a padded message recovers the message, whatever `STRICT` says. -/
theorem deliverDecrypted_pad_recovers {m : Bytes} {n : Nat} (hn : m.length = n) (hlt : n < 2 ^ 32)
    (r : State) : Recovers m r.dstAddr n (deliverDecrypted (pad m) r) := by
  subst hn
  have hle : m.length ≤ (pad m).length := by rw [pad_length, paddedLength]; omega
  rw [deliverDecrypted_done (unpad_pad m) rfl]
  refine ⟨?_, ?_, rfl, rfl⟩
  · rw [State.memRead_cmdDone, State.memRead_memWrite_take _ _ hle, pad_take]
  · rw [State.cmdDone_outlen, BitVec.toNat_ofNat, Nat.mod_eq_of_lt hlt]

/-- The state between the two commands of R180: the second takes its input where the first, which left `t`,
wrote it. -/
def decryptSetup (s t : State) (c : Word) : State := { t with src := s.dst, len := t.outlen, dst := c }

/-- R180. A decryption of the output of an encryption recovers the input, when its transform gives the padded
message back. -/
theorem decryptCommand_encryptCommand {f g : Bytes → Bytes} {e : Instr} (he : e = .cbcenc ∨ e = .ecbenc)
    (hf : ∀ m, (f m).length = paddedLength m.length) (hundo : ∀ m, g (f m) = pad m) {s : State} (c : Word)
    (hwf : s.cfg.wf = true) (hadm : s.Admits e)
    (hnone : (decryptSetup s (encryptCommand f s) c).decryptError = none) :
    Recovers (s.memRead s.srcAddr s.lenBytes) c.toNat s.lenBytes
      (decryptCommand g (decryptSetup s (encryptCommand f s) c)) := by
  obtain ⟨hread, -, houtlen, -⟩ := encryptCommand_writesOutput he hf hwf hadm
  have hinput : (decryptSetup s (encryptCommand f s) c).memRead
      (decryptSetup s (encryptCommand f s) c).srcAddr (decryptSetup s (encryptCommand f s) c).lenBytes =
        f (s.memRead s.srcAddr s.lenBytes) := by
    rw [← hread, ← houtlen]
    exact State.memRead_congr fun _ _ => rfl
  rw [decryptCommand_admitted g hnone, hinput, hundo]
  exact deliverDecrypted_pad_recovers (s.memRead_length _ _) s.len.isLt
    (decryptSetup s (encryptCommand f s) c)

/-- Settles O20: in each mode the second transform gives the padded message back, from which `unpad`, and the
delivery, take the message. -/
theorem decryptionUndoesEncryption : Obligations.DecryptionUndoesEncryption := by
  refine ⟨fun rk iv m hiv => ⟨?_, ?_⟩, fun s c e d hed hwf hadm => ?_⟩
  · rw [cbcDecryptRaw_cbcEncrypt m rk hiv, unpad_pad]
  · rw [ecbDecryptRaw_ecbEncrypt, unpad_pad]
  simp only [List.mem_cons, Prod.mk.injEq, List.not_mem_nil, or_false] at hed
  rcases hed with ⟨rfl, rfl⟩ | ⟨rfl, rfl⟩
  · obtain ⟨t, hexec, -, hiv, -, -, -, -, hkeys, -⟩ := exec_keepsOtherColumns .cbcenc s
    obtain ⟨hrk, -⟩ := hkeys (by decide)
    cases hexec
    refine ⟨_, rfl, fun hr => ⟨_, rfl, ?_⟩⟩
    refine decryptCommand_encryptCommand (.inl rfl) (fun m => cbcEncrypt_length m _ _) (fun m => ?_) c hwf hadm
      ((State.admits_decrypt _ (.inl rfl)).1 hr)
    rw [hrk, hiv]
    exact cbcDecryptRaw_cbcEncrypt m s.rk (bytes16_length s.iv)
  · obtain ⟨t, hexec, -, -, -, -, -, -, hkeys, -⟩ := exec_keepsOtherColumns .ecbenc s
    obtain ⟨hrk, -⟩ := hkeys (by decide)
    cases hexec
    refine ⟨_, rfl, fun hr => ⟨_, rfl, ?_⟩⟩
    refine decryptCommand_encryptCommand (.inr rfl) (fun m => ecbEncrypt_length m _) (fun m => ?_) c hwf hadm
      ((State.admits_decrypt _ (.inr rfl)).1 hr)
    rw [hrk]
    exact ecbDecryptRaw_ecbEncrypt m s.rk

end Sys2Proof.Machine
end

section
/-! PROOFS. HASH against its parts (R215), and what it reads (R212, R216). -/

namespace Sys2Proof.Machine

/-! ### HASH as HINIT and one HBLOCK per block -/

/-- The first `n` blocks of a message, in order. -/
def messageBlocks (q : Bytes) (n : Nat) : List Bytes := (List.range n).map (blockAt 64 q)

theorem messageBlocks_succ (q : Bytes) (n : Nat) :
    messageBlocks q (n + 1) = messageBlocks q n ++ [blockAt 64 q n] := by
  rw [messageBlocks, List.range_succ, List.map_append]
  rfl

/-- R213. The state after `n` blocks compresses them in turn. -/
theorem compressBlocks_eq_foldl (n : Nat) (v : Vector Word 8) (q : Bytes) :
    compressBlocks n v q = (messageBlocks q n).foldl compress v := by
  induction n with
  | zero => rfl
  | succ n ih => rw [compressBlocks_succ, ih, messageBlocks_succ, List.foldl_concat]

/-- The blocks of a message of whole blocks have 64 bytes. -/
theorem messageBlocks_length {q : Bytes} {n : Nat} (hq : 64 * n ≤ q.length) :
    ∀ b ∈ messageBlocks q n, b.length = 64 := by
  intro b hb
  obtain ⟨i, hi, rfl⟩ := List.mem_map.1 hb
  have hlt := List.mem_range.1 hi
  exact blockAt_length (by omega)

theorem State.memWrite_srcAddr (s : State) (a : Nat) (v : Bytes) : (s.memWrite a v).srcAddr = s.srcAddr := rfl

/-- R211. HBLOCK on a block just put at `SRC` compresses that block. -/
theorem exec_hblock_memWrite {s : State} {b : Bytes} (hb : b.length = 64)
    (hroom : s.srcAddr + 64 ≤ s.cfg.bufBytes) : exec .hblock (s.memWrite s.srcAddr b) =
      .next (((s.memWrite s.srcAddr b).setH (compress s.h b)).cmdDone 0 false) := by
  have hread := s.memRead_memWrite s.srcAddr b
  rw [hb] at hread
  have hrun := exec_hblock_admitted (s := s.memWrite s.srcAddr b) (State.hblockError_eq_none.2 hroom)
  rwa [State.memWrite_h, State.memWrite_srcAddr, hread] at hrun

/-- R215. One HBLOCK per block compresses the blocks in turn into `H`. -/
theorem hashBlocks_next {bs : List Bytes} (hbs : ∀ b ∈ bs, b.length = 64) {s : State}
    (hroom : s.srcAddr + 64 ≤ s.cfg.bufBytes) (hok : s.err = .ok) :
    ∃ u, hashBlocks bs s = .next u ∧ u.h = bs.foldl compress s.h ∧ u.err = .ok := by
  induction bs generalizing s with
  | nil => exact ⟨s, rfl, rfl, hok⟩
  | cons b bs ih =>
    obtain ⟨hb, hrest⟩ := List.forall_mem_cons.1 hbs
    rw [hashBlocks, exec_hblock_memWrite hb hroom]
    exact ih hrest hroom rfl

/-- Settles O27: both compress the blocks of the padded message in turn, from `HIV`. -/
theorem hashIsHinitThenHblocks : Obligations.HashIsHinitThenHblocks := by
  intro s r hadm hroom
  have hblocks := messageBlocks_length (hpad_blocks (s.memRead s.srcAddr s.lenBytes)).le
  obtain ⟨u, hrun, hh, hok⟩ :=
    hashBlocks_next hblocks (s := (r.setH HIV).cmdDone 0 false) hroom rfl
  refine ⟨_, _, u, exec_hash_admitted (s.admits_hash.1 hadm), rfl, hrun, ?_, hok⟩
  exact hh.trans (compressBlocks_eq_foldl _ _ _).symm

/-! ### What HASH reads -/

/-- Stores of the same bytes leave `BUF` the same where it was. -/
theorem SameBuf.memWrite {s r : State} (h : SameBuf s r) (a : Nat) (v : Bytes) :
    SameBuf (s.memWrite a v) (r.memWrite a v) := by
  intro b
  rw [State.readByte_memWrite, State.readByte_memWrite, h b]

/-- R212. The same digest delivered at the same address leaves `BUF` the same where it was. -/
theorem SameBuf.deliverDigest {s r : State} (h : SameBuf s r) (hdst : s.dstAddr = r.dstAddr)
    (v : Vector Word 8) : SameBuf (deliverDigest v s) (deliverDigest v r) := by
  rw [Machine.deliverDigest, Machine.deliverDigest, hdst]
  exact h.memWrite r.dstAddr (digestOf v)

/-- Settles O28: the two states fail at the same check, or read the same message. -/
theorem hashReadsMessageOnly : Obligations.HashReadsMessageOnly := by
  intro s r t u hsrc hdst hlen hcfg hbuf ht hu
  have hsrcAddr : s.srcAddr = r.srcAddr := congrArg BitVec.toNat hsrc
  have hdstAddr : s.dstAddr = r.dstAddr := congrArg BitVec.toNat hdst
  have hlenBytes : s.lenBytes = r.lenBytes := congrArg BitVec.toNat hlen
  have hcheck : s.hashError = r.hashError := by
    simp only [State.hashError, State.rangeConditions, State.fits, hsrcAddr, hdstAddr, hlenBytes, hcfg]
  cases hr : r.hashError with
  | some c =>
    cases (exec_refused (i := .hash) (hcheck.trans hr)).symm.trans ht
    cases (exec_refused (i := .hash) hr).symm.trans hu
    exact ⟨rfl, rfl, hbuf, fun hok => absurd hok (State.checkError_code (i := .hash) hr).1⟩
  | none =>
    have hread : s.memRead s.srcAddr s.lenBytes = r.memRead r.srcAddr r.lenBytes := by
      rw [hsrcAddr, hlenBytes]
      exact State.memRead_congr fun i _ => (hbuf _).symm
    cases (exec_hash_admitted (hcheck.trans hr)).symm.trans ht
    cases (exec_hash_admitted hr).symm.trans hu
    rw [hread]
    exact ⟨rfl, rfl, hbuf.deliverDigest hdstAddr _, fun _ => rfl⟩

end Sys2Proof.Machine
end

section
/-! PROOFS. The register file as software sees it: a write read back (R241, R242), the pseudo-instructions
(R96), the word of `STATUS` (R31), the write of a key (R22), and words of the opcode map (R91). -/

namespace Sys2Proof.Machine

/-! ### Reading back a write -/

/-- The registers that hold the word last written to them, whole (R22, R24 to R29). -/
def Reg.isData : Reg → Bool
  | .src | .dst | .len | .key _ | .iv _ | .blk _ | .h _ => true
  | .cmd | .status | .ctrl | .outlen | .rk _ => false

/-- The offsets of the data registers. -/
theorem Reg.exists_isData {off : Nat} (halign : off % 4 = 0)
    (hoff : 0x00C ≤ off ∧ off ≤ 0x014 ∨ 0x020 ≤ off ∧ off < 0x050 ∨ 0x060 ≤ off ∧ off < 0x080) :
    ∃ r : Reg, off = r.offset ∧ r.isData = true := by
  cases hreg : Reg.atOffset off with
  | error e =>
    have hnone := Reg.atOffset_error (by omega) hreg
    simp only [reservedOffsets, List.mem_cons, List.not_mem_nil, or_false] at hnone
    omega
  | ok r =>
    obtain rfl := Reg.offset_of_atOffset hreg
    refine ⟨r, rfl, ?_⟩
    cases r with
    | src | dst | len | key | iv | blk | h => rfl
    | cmd | status | ctrl | outlen | rk => simp only [Reg.offset] at hoff; omega

/-- R241. A write to a data register leaves the word there and nothing for the host. -/
theorem writeReg_isData {r : Reg} (hr : r.isData = true) (d : Word) (s : State) :
    ∃ t, writeReg r d s = .next t ∧ t.pending = s.pending ∧ t.responses = s.responses ∧ t.readReg r = d := by
  cases r with
  | cmd | status | ctrl | outlen | rk => cases hr
  | src | dst | len => exact ⟨_, rfl, rfl, rfl, rfl⟩
  | key k | iv k | blk k | h k => exact ⟨_, rfl, rfl, rfl, Vector.getElem_set_self _⟩

/-- R33. `CTRL` reads back bit 0 of the word written. -/
theorem State.writeCtrl_ctrlWord (s : State) (d : Word) : (s.writeCtrl d).ctrlWord = d &&& 1 := by
  refine BitVec.eq_of_toNat_eq ?_
  rw [State.ctrlWord_toNat, State.writeCtrl_strict, BitVec.toNat_and]
  change (d.toNat.testBit 0).toNat = d.toNat &&& 1
  rw [Nat.and_one_is_mod, Nat.testBit_zero]
  rcases Nat.mod_two_eq_zero_or_one d.toNat with heven | hodd
  · rw [heven]; rfl
  · rw [hodd]; rfl

/-- R241, R242. A pending write whose location reads `v` afterwards, and a read of that location, hand `v` to
the host. -/
def ReadsBack (s : State) (v : Word) : Prop :=
  ∃ t u, step s = .next t ∧ step t = .next u ∧ u.responses = s.responses ++ [.word v]

theorem readsBack_of_writeReg {s t : State} {r : Reg} {d : Word} {rest : List HostStep}
    (hpending : s.pending = .bus (.wr r.offset d) :: .bus (.rd r.offset) :: rest)
    (hwrite : writeReg r d (s.withPending (.bus (.rd r.offset) :: rest)) = .next t)
    (htail : t.pending = .bus (.rd r.offset) :: rest) (hresponses : t.responses = s.responses) :
    ReadsBack s (t.readReg r) := by
  refine ⟨t, _, (step_wr hpending r rfl).trans hwrite, step_rd htail r rfl, ?_⟩
  rw [State.respond_responses, State.withPending_responses, hresponses]

/-- Settles O41: the offsets are those of the data registers, which keep the word, and of `CTRL`. -/
theorem registerReadsBackWrite : Obligations.RegisterReadsBackWrite := by
  intro s off d rest hpending
  refine ⟨fun halign hoff => ?_, fun hoff => ?_⟩
  · obtain ⟨r, rfl, hr⟩ := Reg.exists_isData halign hoff
    obtain ⟨t, hwrite, htail, hresponses, hword⟩ :=
      writeReg_isData hr d (s.withPending (.bus (.rd r.offset) :: rest))
    rw [← hword]
    exact readsBack_of_writeReg hpending hwrite htail hresponses
  · subst hoff
    rw [← State.writeCtrl_ctrlWord (s.withPending (.bus (.rd 0x008) :: rest))]
    exact readsBack_of_writeReg (r := .ctrl) hpending rfl rfl rfl

/-! ### The word of `STATUS` -/

/-- Settles O40: the low bits by their places in the word, the rest by its value. -/
theorem statusWordBits : Obligations.StatusWordBits := by
  intro s
  refine ⟨?_, ?_, ?_, ?_, ?_⟩
  · simp only [State.statusWord, BitVec.getLsbD_append]; simp
  · simp only [State.statusWord, BitVec.getLsbD_append]; simp
  · simp only [State.statusWord, BitVec.getLsbD_append]; simp
  · intro i h3 h7
    simp only [State.statusWord, BitVec.getLsbD_append]
    have h0 : ¬ i < 1 := by omega
    have h1 : ¬ i - 1 < 1 := by omega
    have h2 : ¬ i - 1 - 1 < 1 := by omega
    have h5 : i - 1 - 1 - 1 < 5 := by omega
    simp [h0, h1, h2, h5]
  · have hdiv : s.statusWord.toNat / 2 ^ 8 = s.err.code.toNat := by
      have hpadbad := s.padbad.toNat_le
      have hrkv := s.rkv.toNat_le
      rw [State.statusWord_toNat]
      omega
    rw [hdiv]
    cases s.err <;> rfl

/-! ### Pseudo-instructions -/

/-- R241. What an accepted write leaves. -/
theorem State.afterTransaction_wr {s t : State} {r : Reg} {d : Word} (h : writeReg r d s = .next t) :
    s.afterTransaction (.wr r.offset d) = t := by
  rw [State.afterTransaction, transact, hostWr_offset, h]

/-- Writing four words in turn writes the whole register array. -/
theorem vector_set_four (x w : Vector Word 4) :
    (((x.set 0 w[0]).set 1 w[1]).set 2 w[2]).set 3 w[3] = w := by
  rw [← vector_four_eta x, ← vector_four_eta w]
  rfl

/-- R96. `setWords` at the offset of word 0 of a register array is the write of its four words. -/
theorem State.afterTransactions_setWords {s t0 t1 t2 t3 : State} {reg : Fin 4 → Reg} {base : Nat} {b : Bytes}
    (hbase : ∀ k, (reg k).offset = base + 4 * k) (h0 : writeReg (reg 0) (words4 b)[0] s = .next t0)
    (h1 : writeReg (reg 1) (words4 b)[1] t0 = .next t1) (h2 : writeReg (reg 2) (words4 b)[2] t1 = .next t2)
    (h3 : writeReg (reg 3) (words4 b)[3] t2 = .next t3) : s.afterTransactions (setWords base b) = t3 := by
  have hsplit : setWords base b = [.wr (reg 0).offset (words4 b)[0], .wr (reg 1).offset (words4 b)[1],
      .wr (reg 2).offset (words4 b)[2], .wr (reg 3).offset (words4 b)[3]] := by
    simp only [hbase]; rfl
  simp only [hsplit, State.afterTransactions, List.foldl_cons, List.foldl_nil,
    State.afterTransaction_wr h0, State.afterTransaction_wr h1, State.afterTransaction_wr h2,
    State.afterTransaction_wr h3]

/-- R96. A mnemonic alone runs its command. -/
theorem transact_command (i : Instr) (s : State) : transact (command i) s = exec i s :=
  (hostWr_offset .cmd (encode i) s).trans (commandWord_of_decode ((decode_eq_ok_iff _ _).2 rfl) s)

/-- R96, R22. The four writes of SETKEY leave the key and clear `RKV`. -/
theorem State.afterTransactions_setKey (s : State) (b : Bytes) :
    s.afterTransactions (setKey b) = { s with key := words4 b, rkv := false } :=
  (State.afterTransactions_setWords (reg := .key) (fun _ => rfl) rfl rfl rfl rfl).trans
    (congrArg (fun w => { s with key := w, rkv := false }) (vector_set_four s.key (words4 b)))

/-- R96. The four writes of SETIV leave the initialization vector. -/
theorem State.afterTransactions_setIv (s : State) (b : Bytes) :
    s.afterTransactions (setIv b) = { s with iv := words4 b } :=
  (State.afterTransactions_setWords (reg := .iv) (fun _ => rfl) rfl rfl rfl rfl).trans
    (congrArg (fun w => { s with iv := w }) (vector_set_four s.iv (words4 b)))

/-- R96. The four writes of SETBLK leave the block. -/
theorem State.afterTransactions_setBlk (s : State) (b : Bytes) :
    s.afterTransactions (Machine.setBlk b) = { s with blk := words4 b } :=
  (State.afterTransactions_setWords (reg := .blk) (fun _ => rfl) rfl rfl rfl rfl).trans
    (congrArg (fun w => { s with blk := w }) (vector_set_four s.blk (words4 b)))

/-- Settles O43: each pseudo-instruction is a list of writes of whole words. -/
theorem pseudoInstructionsWriteWholeRegisters : Obligations.PseudoInstructionsWriteWholeRegisters :=
  ⟨transact_command, fun s b _ _ _ _ =>
    ⟨s.afterTransactions_setKey b, s.afterTransactions_setIv b, s.afterTransactions_setBlk b, rfl⟩⟩

/-! ### A key write -/

/-- R263. Without a valid schedule every cipher command fails with `ERR_NOKEY`. -/
theorem exec_noKey {i : Instr} (hi : i ∈ cipherCommands) {s : State} (hkey : s.rkv = false) :
    exec i s = .next (s.FailedWith .noKey) := by
  have hfail : s.FirstFailure i .noKey := fun hok => by
    have hset := hok hi
    rw [hkey] at hset
    cases hset
  rw [exec_refused ((s.firstFailure_iff i .noKey).1 hfail), State.failedWith_eq]

/-- Settles O44: the write clears `RKV`, and the key check is the first of every cipher command. -/
theorem keyWriteInvalidatesSchedule : Obligations.KeyWriteInvalidatesSchedule := by
  intro s k d rest hpending
  exact ⟨_, step_wr hpending (.key k) rfl, rfl, rfl, fun i hi => exec_noKey hi rfl⟩

/-! ### Words of the opcode map -/

/-- Settles O33: each word is the one the map gives its command. -/
theorem opcodeMapWords : Obligations.OpcodeMapWords := by
  simp only [Obligations.OpcodeMapWords, decode_eq_ok_iff]
  decide

end Sys2Proof.Machine
end
